-- ==== Sys2Proof/Word.lean ====
section
/-! DEFINITION. The bit-vector types of the machine (rule R8: every value is unsigned). -/

namespace Sys2Proof

/-- A byte of memory or of a command word (`u8`). -/
abbrev Byte := BitVec 8

/-- An accumulator (`u32`). -/
abbrev Word32 := BitVec 32

/-- A machine word, an address or a length as a register holds it (`u64`). -/
abbrev Word64 := BitVec 64

end Sys2Proof
end

