-- ==== Sys2Proof/Syntax.lean ====
section
/-! DEFINITION. The commands of the engine: one constructor per row of spec/opcode_table.json (rule R113). -/

namespace Sys2Proof

/-- A command. The one immediate is COMBINE's block size, an unsigned count (rule R112). -/
inductive Instr where
  /-- `NOP`, rule R252. -/
  | nop
  /-- `STEP1`, rule R144. -/
  | step1
  /-- `STEP2`, rule R145. -/
  | step2
  /-- `STEP4`, rule R146. -/
  | step4
  /-- `STEP8`, rule R147. -/
  | step8
  /-- `PROLOGUE`, rule R162. -/
  | prologue
  /-- `STRIPE`, rule R185. -/
  | stripe
  /-- `COMBINE n`, rule R213. -/
  | combine (n : Nat)
  /-- `EPILOGUE`, rule R234. -/
  | epilogue
  /-- `COMPUTE`, rule R250. -/
  | compute
  deriving DecidableEq, Repr

end Sys2Proof
end

