-- ==== Sys2Proof/WellFormed.lean ====
section
/-! DEFINITION. Which commands have a command word: COMBINE's block size must fit the field `N`, 8 bits (rules R111, R116).
A block size of 0 or of 129 to 255 is well formed: it has a word, and running it faults BSIZE (rule R112). -/

namespace Sys2Proof

/-- The command has a command word. -/
def Instr.wellFormed : Instr → Bool
  | .nop => true
  | .step1 => true
  | .step2 => true
  | .step4 => true
  | .step8 => true
  | .prologue => true
  | .stripe => true
  | .combine n => decide (n ≤ 255)
  | .epilogue => true
  | .compute => true

end Sys2Proof
end

