-- ==== Sys2Proof/Decode.lean ====
section
/-! DEFINITION. The command word (rules R110 to R115): its fields, the opcode map, the decoder, total and rejecting by
name, and after it the encoder, written from the same map. -/

namespace Sys2Proof

/-- The field `OP`, bits 7:0 (rule R111). -/
def opField (w : Word32) : Byte := w.extractLsb' 0 8

/-- The field `N`, bits 15:8 (rule R111). -/
def nField (w : Word32) : Byte := w.extractLsb' 8 8

/-- The field `RSV`, bits 31:16 (rule R111). -/
def rsvField (w : Word32) : BitVec 16 := w.extractLsb' 16 16

/-- A row of the opcode map of rule R113: the command word with `N` = 0, the bits that must equal it, and the command
that the word stands for, given `n = zext_64(cmd[15:8])` (rule R112). -/
structure OpRow where
  pattern : Word32
  mask : Word32
  command : Nat → Instr

/-- The complete opcode map of rule R113. -/
def opcodeMap : List OpRow :=
  [⟨0x00000000#32, 0xFFFFFFFF#32, fun _ => .nop⟩,
   ⟨0x00000001#32, 0xFFFFFFFF#32, fun _ => .step1⟩,
   ⟨0x00000002#32, 0xFFFFFFFF#32, fun _ => .step2⟩,
   ⟨0x00000003#32, 0xFFFFFFFF#32, fun _ => .step4⟩,
   ⟨0x00000004#32, 0xFFFFFFFF#32, fun _ => .step8⟩,
   ⟨0x00000010#32, 0xFFFFFFFF#32, fun _ => .prologue⟩,
   ⟨0x00000011#32, 0xFFFFFFFF#32, fun _ => .stripe⟩,
   ⟨0x00000012#32, 0xFFFF00FF#32, fun n => .combine n⟩,
   ⟨0x00000013#32, 0xFFFFFFFF#32, fun _ => .epilogue⟩,
   ⟨0x00000014#32, 0xFFFFFFFF#32, fun _ => .compute⟩]

/-- The word has the row's fixed bits. -/
def OpRow.covers (r : OpRow) (w : Word32) : Bool := w &&& r.mask == r.pattern

/-- Why a command word is illegal (rule R114 (a), (b), (c)), or why bytes hold no command word. -/
inductive Reject where
  /-- Rule R114 (a): `OP` is not in the opcode map. -/
  | unknownOpcode
  /-- Rule R114 (b): `N != 0` with an opcode other than COMBINE's. -/
  | nonzeroN
  /-- Rule R114 (c): `RSV != 0`. -/
  | nonzeroReserved
  /-- Fewer than the four bytes of a command word (rule R110). -/
  | tooShort
  deriving DecidableEq, Repr

/-- The first ground of rule R114 that a word no row covers meets. -/
def illegalReason (w : Word32) : Reject :=
  if (opcodeMap.any fun r => opField r.pattern == opField w) then
    if rsvField w = 0#16 then .nonzeroN else .nonzeroReserved
  else .unknownOpcode

/-- Decode a command word. -/
def decodeWord (w : Word32) : Except Reject Instr :=
  match opcodeMap.find? (fun r => r.covers w) with
  | some r => .ok (r.command (nField w).toNat)
  | none => .error (illegalReason w)

/-- `Illegal(cmd)` of rule R300: no row of the map covers the word. -/
def illegalWord (w : Word32) : Bool :=
  match decodeWord w with
  | .ok _ => false
  | .error _ => true

/-- Four bytes as a command word, the byte at the lowest offset in bits 7:0 (rule R82). -/
def wordOfBytes (b0 b1 b2 b3 : Byte) : Word32 := b3 ++ b2 ++ b1 ++ b0

/-- Decode the command word at the head of a list of bytes; answers what is left. -/
def decodeBytes : List Byte → Except Reject (Instr × List Byte)
  | b0 :: b1 :: b2 :: b3 :: rest =>
    match decodeWord (wordOfBytes b0 b1 b2 b3) with
    | .ok i => .ok (i, rest)
    | .error e => .error e
  | _ => .error .tooShort

/-- The command word whose bits below `nbits` are those of `w`, the bits above zero (log 26). -/
def tableWord (nbits w : Nat) : Word32 := BitVec.ofNat 32 (w % 2 ^ nbits)

/-- A command word's bytes as the window stores them, lowest offset first (rule R82). -/
def bytesOfWord (w : Word32) : List Byte :=
  [w.extractLsb' 0 8, w.extractLsb' 8 8, w.extractLsb' 16 8, w.extractLsb' 24 8]

/-- The command the decoder reads from a word numbered as spec/opcode_table.json numbers it. -/
def decodeTableWord (nbits w : Nat) : Option Instr :=
  match decodeBytes (bytesOfWord (tableWord nbits w)) with
  | .ok (i, _) => some i
  | .error _ => none

/-- The field `OP` of a command (rule R113). -/
def Instr.opcode : Instr → Byte
  | .nop => 0x00#8
  | .step1 => 0x01#8
  | .step2 => 0x02#8
  | .step4 => 0x03#8
  | .step8 => 0x04#8
  | .prologue => 0x10#8
  | .stripe => 0x11#8
  | .combine _ => 0x12#8
  | .epilogue => 0x13#8
  | .compute => 0x14#8

/-- The field `N` of a command: COMBINE's block size, 0 for every other command (rule R111). -/
def Instr.nImmediate : Instr → Byte
  | .nop => 0#8
  | .step1 => 0#8
  | .step2 => 0#8
  | .step4 => 0#8
  | .step8 => 0#8
  | .prologue => 0#8
  | .stripe => 0#8
  | .combine n => BitVec.ofNat 8 n
  | .epilogue => 0#8
  | .compute => 0#8

/-- The command word of a well-formed command: `RSV = 0`, then `N`, then `OP` (rule R111). -/
def encode (i : Instr) : Word32 := (0#16 : BitVec 16) ++ i.nImmediate ++ i.opcode

end Sys2Proof
end

