-- ==== Sys2Proof/Config.lean ====
section
/-! DEFINITION. The parameters of this instantiation (rule R7) and the free values. -/

namespace Sys2Proof

/-- `WORD_BYTES`, rule R7. -/
abbrev Config.wordBytes : Nat := 8

/-- `MAX_BLOCK`, the most loop-units of a block (`kMaxBlockSize`), rule R7. -/
abbrev Config.maxBlock : Nat := 128

/-- `THRESHOLD_BYTES` in strides, rules R7 and R33. -/
abbrev Config.thresholdStrides : Nat := 4

/-- `CAPS.VERSION`, rule R33. -/
abbrev Config.version : Nat := 1

/-- FREE VALUE (log 7). The `k`-th value the spec leaves open ("a draw", "any value"): rules R51, R97, R306, R308.
It has no body, so nothing can be proved of it; a step applies it to the counter `State.draws` and advances the counter. -/
opaque Config.draw : Nat → Word64

end Sys2Proof
end

