-- ==== Sys2Proof/Machine/State.lean ====
section
/-! DEFINITION. The state of the machine: the engine's registers and sequencer, the bus memory and the platform around
it, and the schedule of what the agents do next. All of it is plain data. -/

namespace Sys2Proof.Machine

/-- The fault codes of rule R303, as `STATUS.ERRCODE` holds them (7 to 15 are never written by this engine;
DEDUCED, log 24). -/
inductive FaultCode where
  /-- Code 0, no fault. -/
  | none
  /-- Code 1, an illegal command word (rule R114). -/
  | illegal
  /-- Code 2, COMBINE's block size outside 1..128. -/
  | bsize
  /-- Code 3, `ADDR = 0` with `LEN > 0`. -/
  | null
  /-- Code 4, `ADDR + LEN > 2^64`. -/
  | range
  /-- Code 5, `ADDR mod 8 != 0` where 8-byte reads need alignment. -/
  | align
  /-- Code 6, a read of the job answered with an error. -/
  | bus
  deriving DecidableEq, Repr

/-- The fields of `STATUS` (rule R35). Its reserved bits have no storage. -/
structure Status where
  busy : Bool
  done : Bool
  err : Bool
  drop : Bool
  errcode : FaultCode
  deriving DecidableEq, Repr

/-- One read of the engine's read port: `MemRead(addr, width)` of rule R11. -/
structure BusRead where
  addr : Nat
  width : Nat
  deriving DecidableEq, Repr

/-- How a bus address answers a read: the platform parameter `MEM` (rules R7, R91, R306, R307). -/
inductive Answer where
  /-- The byte's contents. -/
  | data
  /-- Memory whose reads have side effects: the results are any value (rule R91). -/
  | device
  /-- An error answer (rule R306). -/
  | error
  /-- No answer, ever (rule R307). -/
  | silent
  deriving DecidableEq, Repr

/-- A range of bus addresses that answer alike. -/
structure Region where
  base : Nat
  size : Nat
  kind : Answer
  deriving DecidableEq, Repr

/-- The platform's OPEN parameters (rule R7): `ENGINE_BASE` (64 bits, log 31), `MEM`, `COHERENT`. The first region that holds an address
says how it answers; an address of no region answers with data (log 3). -/
structure Platform where
  base : Word64
  regions : List Region
  coherent : Bool
  deriving DecidableEq, Repr

/-- The sequencer's state while a job runs (rule R46). -/
structure Job where
  /-- The command the job runs. -/
  cmd : Instr
  /-- Every read of the job (rule R89). -/
  reads : List BusRead
  /-- The reads not issued yet. -/
  todo : List BusRead
  /-- The reads issued and not yet seen answered. -/
  out : List BusRead
  /-- The failing byte of the first error answer the engine has seen (rule R306). -/
  failed : Option Nat
  /-- A byte the job reads is not stable for it (rules R91, R96, R97): its results are any value. -/
  raced : Bool
  deriving DecidableEq, Repr

/-- The window's response to a host access (rules R81, R82). -/
inductive HostResp where
  /-- No access has reached the window. -/
  | none
  /-- A write was taken by the window. -/
  | done
  /-- A read answered, zero-extended. -/
  | value (v : Word64)
  /-- The access was refused on the host's bus (rule R81). -/
  | error
  deriving DecidableEq, Repr

/-- A line of a host program, assembled (rule R116). -/
inductive HostLine where
  /-- A host read of `width` bytes at a host address. -/
  | read (addr : Word64) (width : Nat)
  /-- A host write of `width` bytes at a host address, a command line among them. -/
  | write (addr : Word64) (width : Nat) (value : Word64)
  /-- `WAIT`: reads of `STATUS` until `BUSY = 0`. -/
  | wait
  deriving DecidableEq, Repr

/-- What an agent does next. The order of a list of these is the order of the agents' moves (rules R94, R95; log 12, 28). -/
inductive Event where
  /-- A host read of `width` bytes at a host address. -/
  | hostRead (addr : Word64) (width : Nat)
  /-- A host write of `width` bytes at a host address. -/
  | hostWrite (addr : Word64) (width : Nat) (value : Word64)
  /-- The host program's next line (rule R116): its access, or one turn of its `WAIT` loop. -/
  | line
  /-- Whether the next STEPn, COMBINE or NOP completes in its acceptance step (log 1). -/
  | pace (eager : Bool)
  /-- The engine issues the `k`-th read it has not issued yet. -/
  | issue (k : Nat)
  /-- The memory answers the `k`-th outstanding read. -/
  | answer (k : Nat)
  /-- The engine ends its job, if it can. -/
  | finish
  /-- The engine and the memory run the job on to its end. -/
  | run
  /-- A host agent stores a byte to bus memory. -/
  | store (addr : Word64) (value : Byte)
  /-- Every store so far becomes visible at the engine's read port (a fence, a cache clean; rule R96). -/
  | publish
  /-- The platform resets the engine (rule R340). -/
  | reset
  deriving DecidableEq, Repr

/-- The machine. -/
structure State where
  /-- `STATUS`, rule R35. -/
  status : Status
  /-- `IRQEN`, rule R36: bit 0 `DONE_IE`, bit 1 `ERR_IE`. -/
  irqen : BitVec 2
  /-- `ACC`, rule R37. -/
  acc : Word32
  /-- `DATA`, rule R38. -/
  data : Word64
  /-- `ADDR`, rule R39. -/
  addr : Word64
  /-- `LEN`, rule R40. -/
  len : Word64
  /-- `CRC0`, rule R41. -/
  crc0 : Word32
  /-- `CRC1`, rule R42. -/
  crc1 : Word32
  /-- `CRC2`, rule R43. -/
  crc2 : Word32
  /-- `ERRADDR`, rule R44. -/
  erraddr : Word64
  /-- The sequencer: the running job, if any (rule R46). -/
  job : Option Job
  /-- Bus memory (rule R86): addresses rising, no entry a zero byte; an unlisted byte reads as 0 (log 2). -/
  mem : List Host.Cell
  /-- Bus addresses, rising, with a host store not yet visible at the read port (rules R96, R102; log 5). -/
  stale : List Nat
  /-- The platform's parameters. -/
  plat : Platform
  /-- The model's own: the agents' moves to come, first the next. -/
  events : List Event
  /-- The model's own: the lines of the host's program still to come, first the next (rule R116; log 17). -/
  program : List HostLine
  /-- The model's own: the window's response to the last host access that reached it. -/
  resp : HostResp
  /-- The model's own: whether an accepted STEPn, COMBINE or NOP completes in its acceptance step (log 1). -/
  eager : Bool
  /-- The model's own: how many free values have been used (log 7). -/
  draws : Nat
  deriving DecidableEq, Repr

/-- Why the machine stops. There is no reason: every fault of the spec is reported in `STATUS` and the machine goes on
(rules R302, R308), and a read that never answers leaves the engine stuck, which is no fault (rule R307). -/
inductive Fault where
  deriving DecidableEq, Repr

/-- Why an instruction has no meaning. -/
inductive Refusal where
  /-- Raised by an arm of `exec` that has no meaning yet; safe. No arm raises it. -/
  | notModelled (mnemonic : String)
  deriving DecidableEq, Repr

/-- The outcome of one step of this machine. -/
abbrev Result := Host.Outcome State Fault Refusal

/-- `STATUS` after reset: idle, no fault, no drop (rule R50). -/
def Status.reset : Status :=
  { busy := false, done := false, err := false, drop := false, errcode := .none }

/-- The platform's parameters of the reset state (log 3, 4, 5). -/
def Platform.reset : Platform := { base := 0, regions := [], coherent := true }

/-- The machine right after reset (rules R50, R341), with nothing listed in memory and nothing scheduled. -/
def State.reset : State where
  status := Status.reset
  irqen := 0
  acc := 0
  data := 0
  addr := 0
  len := 0
  crc0 := 0
  crc1 := 0
  crc2 := 0
  erraddr := 0
  job := none
  mem := []
  stale := []
  plat := Platform.reset
  events := []
  program := []
  resp := .none
  eager := true
  draws := 0

end Sys2Proof.Machine
end

