-- ==== Sys2Proof/Machine/Ops.lean ====
section
/-! DEFINITION. The named operations over bus memory, the platform and the registers: reading and writing a byte, the read
port's little-endian assembly, how a read is answered, the free values, and taking a fault and what goes before it. -/

namespace Sys2Proof.Machine

/-! ### Bus memory -/

/-- Bus memory: addresses rising, no entry a zero byte. -/
abbrev Memory := List Host.Cell

/-- What an unlisted byte of bus memory reads as (DESIGN CHOICE, log 2). -/
def Memory.unlisted : Byte := 0#8

/-- The byte at a bus address. -/
def Memory.read : Memory → Nat → Byte
  | [], _ => Memory.unlisted
  | (k, b) :: m, a => if k = a then b else Memory.read m a

/-- Write the byte at a bus address; writing what an unlisted byte reads as removes the entry. -/
def Memory.write : Memory → Nat → Byte → Memory
  | [], a, v => if v = Memory.unlisted then [] else [(a, v)]
  | (k, b) :: m, a, v =>
    if a < k then
      if v = Memory.unlisted then (k, b) :: m else (a, v) :: (k, b) :: m
    else if a = k then
      if v = Memory.unlisted then m else (a, v) :: m
    else (k, b) :: Memory.write m a v

/-- Every entry lies at or above `lo`, rising, in the bus address space, and is not what an unlisted byte reads as. -/
def Memory.wfFrom : Nat → Memory → Bool
  | _, [] => true
  | lo, (k, b) :: m =>
    decide (lo ≤ k) && decide (k < 2 ^ 64) && decide (b ≠ Memory.unlisted) && Memory.wfFrom (k + 1) m

/-- The canonical form of bus memory (rule R86's address space). -/
def Memory.wf (m : Memory) : Bool := Memory.wfFrom 0 m

/-- Add an address to a rising list of addresses without repeats. -/
def insertAddr : List Nat → Nat → List Nat
  | [], a => [a]
  | k :: l, a => if a < k then a :: k :: l else if a = k then k :: l else k :: insertAddr l a

/-- The bytes of bus memory as the read port sees them: the byte at each address. -/
abbrev Bytes := Nat → Byte

/-- The value of `MemRead(a, n)` when it answers: bits `[8k+7:8k]` are the byte at `a + k` (rules R11, R87). -/
def readLE (bytes : Bytes) (a : Nat) : Nat → Word64
  | 0 => 0#64
  | n + 1 => (bytes a).setWidth 64 ||| (readLE bytes (a + 1) n <<< 8)

/-! ### How the platform answers a read (`MEM`, rules R7, R306, R307) -/

/-- The region holds the address. -/
def Region.holds (g : Region) (a : Nat) : Bool := decide (g.base ≤ a) && decide (a < g.base + g.size)

/-- How a bus address answers: as the first region that holds it says, else with data (log 3). -/
def Platform.answer (p : Platform) (a : Nat) : Answer :=
  match p.regions.find? (fun g => g.holds a) with
  | some g => g.kind
  | none => .data

/-- The addresses a read reads: `addr .. addr + width - 1` (rule R11). -/
def BusRead.bytes (r : BusRead) : List Nat := (List.range r.width).map (fun k => r.addr + k)

/-- The read reads the address. -/
def BusRead.covers (r : BusRead) (a : Nat) : Bool := decide (r.addr ≤ a) && decide (a < r.addr + r.width)

/-- The failing bytes of a read (rule R306). -/
def BusRead.failing (p : Platform) (r : BusRead) : List Nat := r.bytes.filter (fun a => p.answer a == .error)

/-- The read holds a byte that never answers (rule R307). -/
def BusRead.hasSilent (p : Platform) (r : BusRead) : Bool := r.bytes.any (fun a => p.answer a == .silent)

/-- The read is never answered: a byte of it never answers and none fails (rule R307). -/
def BusRead.neverAnswers (p : Platform) (r : BusRead) : Bool := r.hasSilent p && (r.failing p).isEmpty

/-- A byte of the read is not stable for the job: memory with read side effects (rule R91), or a store not yet visible
at the read port (rule R96). -/
def BusRead.unstable (p : Platform) (stale : List Nat) (r : BusRead) : Bool :=
  r.bytes.any (fun a => p.answer a == .device || stale.contains a)

/-- The failing bytes of several reads. -/
def failingBytes (p : Platform) (rs : List BusRead) : List Nat := rs.flatMap (BusRead.failing p)

/-! ### Free values (log 7) -/

/-- The next free value. -/
def State.drawn (s : State) : Word64 := Config.draw s.draws

/-- Use up the next free value. -/
def State.spend (s : State) (n : Nat) : State := { s with draws := s.draws + n }

/-- The next free value as a bit. -/
def State.coin (s : State) : Bool := s.drawn.getLsbD 0

/-- One of several failing addresses, the next free value says which (rule R306). -/
def State.pickFailing (s : State) : List Nat → Nat
  | [] => 0
  | [a] => a
  | a :: b :: l => (a :: b :: l).getD (s.drawn.toNat % (a :: b :: l).length) 0

/-- The registers a command writes hold any value (rules R97, R308): `ACC`, `ADDR`, `LEN`, and the lane registers where
the command writes them. -/
def State.drawResults (s : State) (lanes : Bool) : State :=
  { s with
    acc := (Config.draw s.draws).setWidth 32
    addr := Config.draw (s.draws + 1)
    len := Config.draw (s.draws + 2)
    crc0 := if lanes then (Config.draw (s.draws + 3)).setWidth 32 else s.crc0
    crc1 := if lanes then (Config.draw (s.draws + 4)).setWidth 32 else s.crc1
    crc2 := if lanes then (Config.draw (s.draws + 5)).setWidth 32 else s.crc2
    draws := s.draws + 6 }

/-! ### Acceptance, faults, completion -/

/-- A command write or register write is dropped: only `DROP` changes (rules R300, R314). -/
def State.dropWrite (s : State) : State := { s with status := { s.status with drop := true } }

/-- The engine drops command writes: it is busy or in error (rule R300). -/
def State.blocked (s : State) : Bool := s.status.busy || s.status.err

/-- A command write is accepted: `DONE` is cleared (rule R300). -/
def State.accept (s : State) : State := { s with status := { s.status with done := false } }

/-- TAKING A FAULT (rules R302, R308): `ERR` and `ERRCODE` record the cause, `ERRADDR` the address, `BUSY` is 0 and no
job runs. `DONE` was cleared at acceptance and stays 0. -/
def State.raiseFault (s : State) (code : FaultCode) (a : Nat) : State :=
  { s with
    status := { s.status with busy := false, err := true, errcode := code }
    erraddr := BitVec.ofNat 64 a
    job := none }

/-- RETURN FROM A FAULT and the other W1C bits: a write of `STATUS` clears the bits it sets, and clearing `ERR` zeroes
`ERRCODE` (rules R35, R313). -/
def State.clearStatus (s : State) (v : Word64) : State :=
  { s with
    status :=
      { s.status with
        done := s.status.done && !v.getLsbD 1
        err := s.status.err && !v.getLsbD 2
        drop := s.status.drop && !v.getLsbD 3
        errcode := if v.getLsbD 2 then .none else s.status.errcode } }

/-- Completion (rule R309): `BUSY` 0 and `DONE` 1; `ERR`, `ERRCODE` and `ERRADDR` unchanged. -/
def State.complete (s : State) : State :=
  { s with status := { s.status with busy := false, done := true }, job := none }

/-- The platform's reset (rules R340, R341, R342): every register takes its reset value and any job is abandoned. Bus
memory, the platform and what the agents do next are no part of the engine (log 19). -/
def State.resetEngine (s : State) : State :=
  { State.reset with
    mem := s.mem
    stale := s.stale
    plat := s.plat
    events := s.events
    program := s.program
    resp := s.resp
    eager := s.eager
    draws := s.draws }

end Sys2Proof.Machine
end

