-- ==== Sys2Proof/Machine/Operands.lean ====
section
/-! DEFINITION. The operand forms: the working registers of a running command, the buffer cursor with its reads, the
alignment count, and the checks on operands (rules R160, R304, R305, R213). -/

namespace Sys2Proof.Machine

/-- The registers a command's pseudocode works on, with the reads it has made. `ADDR` and `LEN` are exact natural
numbers (rule R9). -/
structure Run where
  acc : Word32
  data : Word64
  addr : Nat
  len : Nat
  crc0 : Word32
  crc1 : Word32
  crc2 : Word32
  /-- Striping engaged: the command writes the lane registers (rule R52). -/
  engaged : Bool
  /-- The reads made, in order. -/
  reads : List BusRead
  deriving DecidableEq, Repr

/-- The working registers at a command's start. -/
def Run.load (s : State) : Run where
  acc := s.acc
  data := s.data
  addr := s.addr.toNat
  len := s.len.toNat
  crc0 := s.crc0
  crc1 := s.crc1
  crc2 := s.crc2
  engaged := false
  reads := []

/-- The command's results in the registers. A write of `ADDR` stores its value mod 2^64 (rules R9, R92). -/
def Run.store (r : Run) (s : State) : State :=
  { s with
    acc := r.acc
    addr := BitVec.ofNat 64 r.addr
    len := BitVec.ofNat 64 r.len
    crc0 := r.crc0
    crc1 := r.crc1
    crc2 := r.crc2 }

/-- Record the read `MemRead(a, n)`. -/
def Run.log (r : Run) (a n : Nat) : Run := { r with reads := r.reads ++ [⟨a, n⟩] }

/-- The unaligned count `u` of an address (rule R160). -/
def unalignedCount (a : Nat) : Nat := (8 - a % 8) % 8

/-- `CheckBuffer` (rule R304). -/
def checkBuffer (s : State) : Option FaultCode :=
  if s.addr.toNat = 0 ∧ 0 < s.len.toNat then some .null
  else if 2 ^ 64 < s.addr.toNat + s.len.toNat then some .range
  else none

/-- `CheckAligned8` (rule R305). -/
def checkAligned8 (s : State) : Option FaultCode :=
  if s.addr.toNat % 8 ≠ 0 then some .align else none

/-- STRIPE's checks (rule R185): the first that fails is reported (rule R301). -/
def checkStripe (s : State) : Option FaultCode := (checkBuffer s).or (checkAligned8 s)

/-- EPILOGUE's checks (rule R234): alignment only when the word loop runs. -/
def checkEpilogue (s : State) : Option FaultCode :=
  (checkBuffer s).or (if 8 ≤ s.len.toNat then checkAligned8 s else none)

/-- COMBINE's check of its block size (rule R213; log 21 for `n` above 255). -/
def checkBlockSize (n : Nat) (_ : State) : Option FaultCode :=
  if n < 1 ∨ 128 < n then some .bsize else none

/-- A command with no check (rules R144 to R147, R252). -/
def noCheck (_ : State) : Option FaultCode := none

end Sys2Proof.Machine
end

