-- ==== Sys2Proof/Machine/Job.lean ====
section
/-! DEFINITION. The life of a job (rules R300, R306 to R309): acceptance and checks, the start, the end by completion or by
a BUS fault, and the stuck state. -/

namespace Sys2Proof.Machine

/-- What a command does after its checks: its pseudocode, on the working registers, reading the given bytes. -/
abbrev Body := Bytes → Run → Run

/-- The reads of a command (rule R89). No read depends on a byte read, so the bytes do not matter. -/
def readPlan (body : Body) (s : State) : List BusRead := (body (fun _ => 0#8) (Run.load s)).reads

/-- The commands whose BUS fault leaves the lane registers with any value (rule R308; log 9). -/
def writesLanes : Instr → Bool
  | .nop => false
  | .step1 => false
  | .step2 => false
  | .step4 => false
  | .step8 => false
  | .prologue => false
  | .stripe => true
  | .combine _ => false
  | .epilogue => false
  | .compute => true

/-- The commands that read memory: the ones that can wait on it (rules R303, R309). -/
def readsMemory : Instr → Bool
  | .nop => false
  | .step1 => false
  | .step2 => false
  | .step4 => false
  | .step8 => false
  | .prologue => true
  | .stripe => true
  | .combine _ => false
  | .epilogue => true
  | .compute => true

/-- The job starts: `BUSY` is 1 (rule R300), no read issued yet. -/
def startJob (cmd : Instr) (body : Body) (s : State) : State :=
  { s with
    status := { s.status with busy := true }
    job := some
      { cmd := cmd
        reads := readPlan body s
        todo := readPlan body s
        out := []
        failed := none
        raced := (readPlan body s).any (BusRead.unstable s.plat s.stale) } }

/-- The job ends with all its reads answered with data (rule R309): the command's results, or any value where a byte it
read was not stable (rules R91, R96, R97; log 10, 11). -/
def endJob (body : Body) (j : Job) (s : State) : State :=
  let r := body (Memory.read s.mem) (Run.load s)
  if j.raced then (s.drawResults r.engaged).complete else (r.store s).complete

/-- The job ends in a BUS fault (rule R308). -/
def busFault (cmd : Instr) (a : Nat) (s : State) : State :=
  (s.drawResults (writesLanes cmd)).raiseFault .bus a

/-- The job waits for reads that are never answered: `BUSY` stays 1 (rule R307). -/
def waitOn (j : Job) (out : List BusRead) (s : State) : State :=
  { s with job := some { j with todo := [], out := out } }

/-- The engine and the memory run the job on to its end, in an order of reads the spec leaves open: completion, a BUS
fault at one of the failing bytes, or the stuck state. Where both a failing and a silent byte are left, the order of
the reads decides, and a free value stands for it (log 14). -/
def settle (body : Body) (j : Job) (s : State) : State :=
  match j.failed with
  | some a =>
    if j.out.any (BusRead.neverAnswers s.plat) then waitOn j j.out s
    else if j.out.any (BusRead.hasSilent s.plat) && s.coin then waitOn j j.out (s.spend 1)
    else busFault j.cmd a (s.spend 1)
  | none =>
    if j.out.any (BusRead.neverAnswers s.plat) then waitOn j (j.out ++ j.todo) s
    else if (failingBytes s.plat (j.out ++ j.todo)).isEmpty then
      if (j.out ++ j.todo).any (BusRead.hasSilent s.plat) then waitOn j (j.out ++ j.todo) s
      else endJob body j s
    else if (j.out ++ j.todo).any (BusRead.hasSilent s.plat) && s.coin then
      waitOn j (j.out ++ j.todo) (s.spend 1)
    else busFault j.cmd ((s.spend 1).pickFailing (failingBytes s.plat (j.out ++ j.todo))) (s.spend 2)

/-- Run the running job on to its end, if there is one. -/
def settleJob (body : Body) (s : State) : State :=
  match s.job with
  | none => s
  | some j => settle body j s

/-- A command write whose word is `cmd`'s (rule R300): dropped while busy or in error; else accepted, checked, and on
passing its checks started. The job's end is a later step (rule R315), but a STEPn, COMBINE or NOP may complete in this
one (rule R309), as `eager` says (log 1). -/
def onCommand (cmd : Instr) (check : State → Option FaultCode) (body : Body) (s : State) : State :=
  if s.blocked then s.dropWrite
  else
    match check s with
    | some code => s.accept.raiseFault code 0
    | none =>
      if s.eager && !readsMemory cmd then settleJob body (startJob cmd body s.accept)
      else startJob cmd body s.accept

/-- A command write whose word is illegal (rules R114, R300). -/
def onIllegal (s : State) : State :=
  if s.blocked then s.dropWrite else s.accept.raiseFault .illegal 0

end Sys2Proof.Machine
end

