-- ==== Sys2Proof/Machine/WordStepper.lean ====
section
/-! DEFINITION. The Word Stepper (spec/40_word_stepper.md): the byte step, the `n`-byte step, and STEP1, STEP2, STEP4, STEP8. -/

namespace Sys2Proof.Machine

/-- The reflected polynomial of CRC32-C (rule R140). -/
def crcPoly : Word32 := 0x82F63B78#32

/-- One round of `CrcByte`'s loop (rule R140). -/
def crcBit (c : Word32) : Word32 := if c.getLsbD 0 then (c >>> 1) ^^^ crcPoly else c >>> 1

/-- `CrcByte(c, b)`, rule R140. -/
def crcByte (c : Word32) (b : Byte) : Word32 := (List.range 8).foldl (fun c _ => crcBit c) (c ^^^ b.setWidth 32)

/-- `StepBytes(c, w, n)`, rule R141: the low `n` bytes of `w`, lowest first. -/
def stepBytes (c : Word32) (w : Word64) (n : Nat) : Word32 :=
  (List.range n).foldl (fun c k => crcByte c (w.extractLsb' (8 * k) 8)) c

/-- Read `n` bytes at the buffer cursor, step them into `ACC` and move the cursor past them (rules R161, R230). -/
def Run.consume (bytes : Bytes) (n : Nat) (r : Run) : Run :=
  { r.log r.addr n with
    acc := stepBytes r.acc (readLE bytes r.addr n) n
    addr := r.addr + n
    len := r.len - n }

/-- STEP1 after its checks (rule R144). -/
def bodyStep1 (_ : Bytes) (r : Run) : Run := { r with acc := stepBytes r.acc r.data 1 }

/-- STEP2 after its checks (rule R145). -/
def bodyStep2 (_ : Bytes) (r : Run) : Run := { r with acc := stepBytes r.acc r.data 2 }

/-- STEP4 after its checks (rule R146). -/
def bodyStep4 (_ : Bytes) (r : Run) : Run := { r with acc := stepBytes r.acc r.data 4 }

/-- STEP8 after its checks (rule R147). -/
def bodyStep8 (_ : Bytes) (r : Run) : Run := { r with acc := stepBytes r.acc r.data 8 }

/-- `STEP1`, rule R144. -/
def execStep1 (s : State) : Result := .next (onCommand .step1 noCheck bodyStep1 s)

/-- `STEP2`, rule R145. -/
def execStep2 (s : State) : Result := .next (onCommand .step2 noCheck bodyStep2 s)

/-- `STEP4`, rule R146. -/
def execStep4 (s : State) : Result := .next (onCommand .step4 noCheck bodyStep4 s)

/-- `STEP8`, rule R147. -/
def execStep8 (s : State) : Result := .next (onCommand .step8 noCheck bodyStep8 s)

end Sys2Proof.Machine
end

