-- ==== Sys2Proof/Machine/Epilogue.lean ====
section
/-! DEFINITION. The Epilogue (spec/44_epilogue.md). -/

namespace Sys2Proof.Machine

/-- The word loop of rule R230, given how many whole words are left. -/
def wordLoop (bytes : Bytes) : Nat → Run → Run
  | 0, r => r
  | k + 1, r => wordLoop bytes k (r.consume bytes 8)

/-- `ReadTail` so far: the word `w`, the offset `o`, and the reads made (rule R231). -/
structure TailRead where
  word : Word64
  offset : Nat
  reads : List BusRead
  deriving DecidableEq, Repr

/-- One width of `ReadTail`'s loop: taken when its bit is set in `r` (rule R231). -/
def tailStep (bytes : Bytes) (a r : Nat) (t : TailRead) (width : Nat) : TailRead :=
  if r &&& width ≠ 0 then
    { word := t.word ||| (readLE bytes (a + t.offset) width <<< (8 * t.offset))
      offset := t.offset + width
      reads := t.reads ++ [⟨a + t.offset, width⟩] }
  else t

/-- `ReadTail`'s loop over the widths 4, 2, 1 (rule R231). -/
def tailReads (bytes : Bytes) (a r : Nat) : TailRead :=
  [4, 2, 1].foldl (tailStep bytes a r) { word := 0#64, offset := 0, reads := [] }

/-- The mask that zeroes the bytes past the `r` that are left (rule R231). -/
def tailMask (r : Nat) : Word64 := 0xFFFFFFFFFFFFFFFF#64 >>> (8 * (8 - r))

/-- `ReadTail(A, r)`, rule R231. -/
def readTail (bytes : Bytes) (a r : Nat) : Word64 := (tailReads bytes a r).word &&& tailMask r

/-- The tail: one step of exactly the bytes left, or nothing (rule R232). -/
def tailBody (bytes : Bytes) (r : Run) : Run :=
  if r.len = 0 then r
  else
    { r with
      acc := stepBytes r.acc (readTail bytes r.addr r.len) r.len
      addr := r.addr + r.len
      len := 0
      reads := r.reads ++ (tailReads bytes r.addr r.len).reads }

/-- `EpilogueBody`, rule R233. -/
def epilogueBody (bytes : Bytes) (r : Run) : Run := tailBody bytes (wordLoop bytes (r.len / 8) r)

/-- `EPILOGUE`, rule R234. -/
def execEpilogue (s : State) : Result := .next (onCommand .epilogue checkEpilogue epilogueBody s)

end Sys2Proof.Machine
end

