-- ==== Sys2Proof/Machine/Prologue.lean ====
section
/-! DEFINITION. The Alignment Prologue (spec/41_prologue.md). -/

namespace Sys2Proof.Machine

/-- One width of the prologue's loop: taken when its bit is set in `u` (rule R161). -/
def prologueStep (bytes : Bytes) (u : Nat) (r : Run) (width : Nat) : Run :=
  if u &&& width ≠ 0 then r.consume bytes width else r

/-- `PrologueBody`, rule R161: the `u` leading bytes by widths 4, 2, 1, or nothing where `u = 0` or `LEN < u`. -/
def prologueBody (bytes : Bytes) (r : Run) : Run :=
  if unalignedCount r.addr = 0 ∨ r.len < unalignedCount r.addr then r
  else [4, 2, 1].foldl (prologueStep bytes (unalignedCount r.addr)) r

/-- `PROLOGUE`, rule R162. -/
def execPrologue (s : State) : Result := .next (onCommand .prologue checkBuffer prologueBody s)

end Sys2Proof.Machine
end

