-- ==== Sys2Proof/Machine/Combine.lean ====
section
/-! DEFINITION. The Combine Step (spec/43_combine.md). -/

namespace Sys2Proof.Machine

/-- `Clmul(a, b)`, the carry-less product (rule R210). -/
def clmul (a b : Word64) : BitVec 128 :=
  (List.range 64).foldl (fun p i => if b.getLsbD i then p ^^^ (a.setWidth 128 <<< i) else p) 0#128

/-- The folded product `t` of `Combine` (rule R211). -/
def combineProduct (c0 c1 : Word32) (n : Nat) : Word64 :=
  (clmul (c0.setWidth 64) ((romEntry (n - 1)).extractLsb' 0 64)
    ^^^ clmul (c1.setWidth 64) ((romEntry (n - 1)).extractLsb' 64 64)).setWidth 64

/-- `Combine(c0, c1, c2, w, n)`, rule R211; it requires `1 ≤ n ≤ 128`. -/
def combine (c0 c1 c2 : Word32) (w : Word64) (n : Nat) : Word32 :=
  stepBytes c2 (combineProduct c0 c1 n ^^^ w) 8

/-- The lane registers after a merge: lane 0 holds it, lanes 1 and 2 restart at zero (rules R184, R213). -/
def Run.merge (m : Word32) (r : Run) : Run := { r with crc0 := m, crc1 := 0, crc2 := 0 }

/-- COMBINE after its checks (rule R213). -/
def bodyCombine (n : Nat) (_ : Bytes) (r : Run) : Run :=
  { r.merge (combine r.crc0 r.crc1 r.crc2 r.data n) with acc := combine r.crc0 r.crc1 r.crc2 r.data n }

/-- `COMBINE n`, rule R213. -/
def execCombine (n : Nat) (s : State) : Result := .next (onCommand (.combine n) (checkBlockSize n) (bodyCombine n) s)

end Sys2Proof.Machine
end

