-- ==== Sys2Proof/Machine/Striping.lean ====
section
/-! DEFINITION. The Three-Lane Striping Engine (spec/42_striping.md). -/

namespace Sys2Proof.Machine

/-- The address of word `i` of lane `k` in a block of `n` loop-units at `a` (rule R180). -/
def laneAddr (a n k i : Nat) : Nat := a + 8 * (k * n + i)

/-- Lane 0 steps its word `i` (rule R184). -/
def lane0Step (bytes : Bytes) (a n i : Nat) (r : Run) : Run :=
  { r.log (laneAddr a n 0 i) 8 with crc0 := stepBytes r.crc0 (readLE bytes (laneAddr a n 0 i) 8) 8 }

/-- Lane 1 steps its word `i` (rule R184). -/
def lane1Step (bytes : Bytes) (a n i : Nat) (r : Run) : Run :=
  { r.log (laneAddr a n 1 i) 8 with crc1 := stepBytes r.crc1 (readLE bytes (laneAddr a n 1 i) 8) 8 }

/-- Lane 2 steps its word `i`, but not its last (rules R181, R184). -/
def lane2Step (bytes : Bytes) (a n i : Nat) (r : Run) : Run :=
  if i < n - 1 then
    { r.log (laneAddr a n 2 i) 8 with crc2 := stepBytes r.crc2 (readLE bytes (laneAddr a n 2 i) 8) 8 }
  else r

/-- One loop-unit of a block (rule R184). -/
def loopUnit (bytes : Bytes) (a n : Nat) (r : Run) (i : Nat) : Run :=
  lane2Step bytes a n i (lane1Step bytes a n i (lane0Step bytes a n i r))

/-- The lane accumulators of a block of `n` loop-units at `a`, all words but lane 2's last (rule R184). -/
def stripeLanes (bytes : Bytes) (a n : Nat) (r : Run) : Run := (List.range n).foldl (loopUnit bytes a n) r

/-- The end of a block: lane 2's held-back word is read, the lanes are merged, and the cursor moves past the block
(rules R181, R184). -/
def stripeMerge (bytes : Bytes) (a n : Nat) (r : Run) : Run :=
  { (r.log (a + 8 * (3 * n - 1)) 8).merge
      (combine r.crc0 r.crc1 r.crc2 (readLE bytes (a + 8 * (3 * n - 1)) 8) n) with
    addr := a + 24 * n
    len := r.len - 24 * n }

/-- A block of `n` loop-units at the cursor (rule R184). -/
def stripeBlock (bytes : Bytes) (n : Nat) (r : Run) : Run :=
  stripeMerge bytes r.addr n (stripeLanes bytes r.addr n r)

/-- The blocks of `loops` loop-units: `min(loops, 128)` units at a time until none is left (rules R182, R184). The first
argument bounds the number of blocks. -/
def stripeLoop (bytes : Bytes) : Nat → Nat → Run → Run
  | 0, _, r => r
  | fuel + 1, loops, r =>
    if loops = 0 then r
    else stripeLoop bytes fuel (loops - min loops 128) (stripeBlock bytes (min loops 128) r)

/-- The lane registers when striping starts: lane 0 takes the seed (rule R184). -/
def stripeStart (r : Run) : Run := { r with crc0 := r.acc, crc1 := 0, crc2 := 0, engaged := true }

/-- `StripeBody`, rule R184: nothing below the threshold of 96 bytes (rule R183). -/
def stripeBody (bytes : Bytes) (r : Run) : Run :=
  if r.len < 96 then r
  else
    let e := stripeLoop bytes (r.len / 24) (r.len / 24) (stripeStart r)
    { e with acc := e.crc0 }

/-- `STRIPE`, rule R185. -/
def execStripe (s : State) : Result := .next (onCommand .stripe checkStripe stripeBody s)

end Sys2Proof.Machine
end

