-- ==== Sys2Proof/Machine/Entry.lean ====
section
/-! DEFINITION. The Entry Point COMPUTE, NOP (spec/45_entry.md), and every command's body by its name. -/

namespace Sys2Proof.Machine

/-- COMPUTE after its checks: prologue, striping if eligible, epilogue (rule R250). `CRC0` keeps the value that
striping leaves (DEDUCED, log 25). -/
def computeBody (bytes : Bytes) (r : Run) : Run := epilogueBody bytes (stripeBody bytes (prologueBody bytes r))

/-- NOP after its checks (rule R252). -/
def bodyNop (_ : Bytes) (r : Run) : Run := r

/-- `COMPUTE`, rule R250. -/
def execCompute (s : State) : Result := .next (onCommand .compute checkBuffer computeBody s)

/-- `NOP`, rule R252. -/
def execNop (s : State) : Result := .next (onCommand .nop noCheck bodyNop s)

/-- What a running job's command does after its checks. -/
def jobBody : Instr → Body
  | .nop => bodyNop
  | .step1 => bodyStep1
  | .step2 => bodyStep2
  | .step4 => bodyStep4
  | .step8 => bodyStep8
  | .prologue => prologueBody
  | .stripe => stripeBody
  | .combine n => bodyCombine n
  | .epilogue => epilogueBody
  | .compute => computeBody

end Sys2Proof.Machine
end

