-- ==== Sys2Proof/Machine/Dispatch.lean ====
section
/-! DEFINITION. The dispatch: a command write whose word decodes to `i`, arm by arm. -/

namespace Sys2Proof.Machine

/-- A command write whose word decodes to `i`, handled by the engine (rule R300). -/
def exec (i : Instr) (s : State) : Host.Outcome State Fault Refusal :=
  match i with
  | .nop => Sys2Proof.Machine.execNop s
  | .step1 => Sys2Proof.Machine.execStep1 s
  | .step2 => Sys2Proof.Machine.execStep2 s
  | .step4 => Sys2Proof.Machine.execStep4 s
  | .step8 => Sys2Proof.Machine.execStep8 s
  | .prologue => Sys2Proof.Machine.execPrologue s
  | .stripe => Sys2Proof.Machine.execStripe s
  | .combine n => Sys2Proof.Machine.execCombine n s
  | .epilogue => Sys2Proof.Machine.execEpilogue s
  | .compute => Sys2Proof.Machine.execCompute s

end Sys2Proof.Machine
end

