-- ==== Sys2Proof/Machine/Flags.lean ====
section
/-! DEFINITION. The engine's flags: `STATUS` as the host reads it and the interrupt output (rules R35, R48, R303, R310). -/

namespace Sys2Proof.Machine

/-- The fault codes' numbers (rule R303). -/
def FaultCode.code : FaultCode → BitVec 4
  | .none => 0#4
  | .illegal => 1#4
  | .bsize => 2#4
  | .null => 3#4
  | .range => 4#4
  | .align => 5#4
  | .bus => 6#4

/-- One bit as a number. -/
def flagBit (b : Bool) : BitVec 1 := BitVec.ofBool b

/-- `STATUS` as a host read sees it: `BUSY` 0, `DONE` 1, `ERR` 2, `DROP` 3, `ERRCODE` 11:8, the rest 0 (rule R35). -/
def Status.word (t : Status) : Word64 :=
  (0#52 : BitVec 52) ++ t.errcode.code ++ (0#4 : BitVec 4) ++ flagBit t.drop ++ flagBit t.err ++ flagBit t.done ++ flagBit t.busy

/-- The interrupt output `IRQ`, a level (rule R310). -/
def State.irq (s : State) : Bool :=
  (s.status.done && s.irqen.getLsbD 0) || (s.status.err && s.irqen.getLsbD 1)

/-- The invariants of `STATUS` (rule R35): `BUSY` implies neither `DONE` nor `ERR`; `ERR = 0` exactly when `ERRCODE = 0`;
`DONE` and `ERR` never together. -/
def Status.ok (t : Status) : Bool :=
  !(t.busy && (t.done || t.err)) && (t.err == !(t.errcode == .none)) && !(t.done && t.err)

end Sys2Proof.Machine
end

