-- ==== Sys2Proof/Machine/Window.lean ====
section
/-! DEFINITION. The register window: which register an offset names, and host reads and writes of it
(rules R32 to R45, R51, R80 to R85, R314). -/

namespace Sys2Proof.Machine

/-- The registers of the map of rule R32. -/
inductive Reg where
  | caps
  | cmd
  | status
  | irqen
  | acc
  | data
  | addr
  | len
  | crc0
  | crc1
  | crc2
  | erraddr
  | reserved
  /-- The low half of `MT[k]`. -/
  | mtLo (k : Nat)
  /-- The high half of `MT[k]`. -/
  | mtHi (k : Nat)
  deriving DecidableEq, Repr

/-- The register whose 8 bytes hold the offset (rules R32, R45, R85). -/
def regAt (o : Nat) : Reg :=
  match o / 8 with
  | 0 => .caps
  | 1 => .cmd
  | 2 => .status
  | 3 => .irqen
  | 4 => .acc
  | 5 => .data
  | 6 => .addr
  | 7 => .len
  | 8 => .crc0
  | 9 => .crc1
  | 10 => .crc2
  | 11 => .erraddr
  | _ =>
    if o < 0x800 then .reserved
    else if (o / 8) % 2 = 0 then .mtLo ((o - 0x800) / 16) else .mtHi ((o - 0x800) / 16)

/-- The offset in the window of a host address, if the window holds it (rule R80). Host addresses and `ENGINE_BASE` have 64
bits and their difference is taken mod 2^64 (DESIGN CHOICE, log 31: the spec gives the host address space no width). An
access belongs to the window where
its first byte does: one that starts below `ENGINE_BASE` and reaches into the window is no access to it (DESIGN CHOICE,
log 30). -/
def windowOffset (base a : Word64) : Option Nat :=
  if (a - base).toNat < 4096 then some (a - base).toNat else none

/-- The accesses the window takes: 4 or 8 bytes, naturally aligned (rule R81). -/
def accessOk (o width : Nat) : Bool := (width == 4 && o % 4 == 0) || (width == 8 && o % 8 == 0)

/-- The bits of a register's 64 that an access at offset `o` reads, zero-extended (rule R82). -/
def readPart (o width : Nat) (v : Word64) : Word64 :=
  if width = 8 then v
  else if o % 8 = 0 then (v.extractLsb' 0 32).setWidth 64 else (v.extractLsb' 32 32).setWidth 64

/-- A register's 64 bits after a write at offset `o`: a 4-byte write changes only the half it addresses (rule R82). -/
def writePart (o width : Nat) (old v : Word64) : Word64 :=
  if width = 8 then v
  else if o % 8 = 0 then old.extractLsb' 32 32 ++ v.extractLsb' 0 32
  else v.extractLsb' 0 32 ++ old.extractLsb' 0 32

/-- A register's 64 bits. -/
def regValue (s : State) : Reg → Word64
  | .caps => capsValue
  | .cmd => 0
  | .status => s.status.word
  | .irqen => s.irqen.setWidth 64
  | .acc => s.acc.setWidth 64
  | .data => s.data
  | .addr => s.addr
  | .len => s.len
  | .crc0 => s.crc0.setWidth 64
  | .crc1 => s.crc1.setWidth 64
  | .crc2 => s.crc2.setWidth 64
  | .erraddr => s.erraddr
  | .reserved => 0
  | .mtLo k => (romEntry k).extractLsb' 0 64
  | .mtHi k => (romEntry k).extractLsb' 64 64

/-- The registers that read as any value while a job runs (rule R51). -/
def Reg.unsettledWhileBusy : Reg → Bool
  | .acc => true
  | .addr => true
  | .len => true
  | .crc0 => true
  | .crc1 => true
  | .crc2 => true
  | .caps => false
  | .cmd => false
  | .status => false
  | .irqen => false
  | .data => false
  | .erraddr => false
  | .reserved => false
  | .mtLo _ => false
  | .mtHi _ => false

/-- The operand and lane registers: a write while a job runs is dropped (rule R314). -/
def Reg.isOperand : Reg → Bool
  | .acc => true
  | .data => true
  | .addr => true
  | .len => true
  | .crc0 => true
  | .crc1 => true
  | .crc2 => true
  | .caps => false
  | .cmd => false
  | .status => false
  | .irqen => false
  | .erraddr => false
  | .reserved => false
  | .mtLo _ => false
  | .mtHi _ => false

/-- The registers whose bits 63:32 read 0 at any time (rules R37, R41 to R43, R83). -/
def Reg.isNarrow : Reg → Bool
  | .acc => true
  | .crc0 => true
  | .crc1 => true
  | .crc2 => true
  | .addr => false
  | .len => false
  | .caps => false
  | .cmd => false
  | .status => false
  | .irqen => false
  | .data => false
  | .erraddr => false
  | .reserved => false
  | .mtLo _ => false
  | .mtHi _ => false

/-- Any value that a register can hold, made of a free value: a 32-bit register's upper half is 0 (rules R51, R83;
log 8). -/
def Reg.anyValue (r : Reg) (v : Word64) : Word64 := if r.isNarrow then (v.setWidth 32).setWidth 64 else v

/-- A host read the window takes: the exact value, or any value of a register that a running job writes (rule R51,
log 8). It has no effect on the engine (rule R85). -/
def windowRead (o width : Nat) (s : State) : State :=
  if s.status.busy && (regAt o).unsettledWhileBusy then
    { s.spend 1 with resp := .value (readPart o width ((regAt o).anyValue s.drawn)) }
  else { s with resp := .value (readPart o width (regValue s (regAt o))) }

/-- A host write of a register that is not dropped: `v` is the register's new 64 bits, `mask` the bits of the written
half, zero elsewhere (rules R32, R35, R36, R83, R85). -/
def regWrite (s : State) (v mask : Word64) : Reg → State
  | .caps => s
  | .cmd => s
  | .status => s.clearStatus mask
  | .irqen => { s with irqen := v.setWidth 2 }
  | .acc => { s with acc := v.setWidth 32 }
  | .data => { s with data := v }
  | .addr => { s with addr := v }
  | .len => { s with len := v }
  | .crc0 => { s with crc0 := v.setWidth 32 }
  | .crc1 => { s with crc1 := v.setWidth 32 }
  | .crc2 => { s with crc2 := v.setWidth 32 }
  | .erraddr => s
  | .reserved => s
  | .mtLo _ => s
  | .mtHi _ => s

/-- A host write the window takes, command writes apart (rules R82, R83, R314). One to the upper half of an operand
register while a job runs is dropped like one to its lower half (DEDUCED, log 15). -/
def windowWrite (o width : Nat) (v : Word64) (s : State) : State :=
  if s.status.busy && (regAt o).isOperand then s.dropWrite
  else regWrite s (writePart o width (regValue s (regAt o)) v) (writePart o width 0 v) (regAt o)

end Sys2Proof.Machine
end

