-- ==== Sys2Proof/Machine/Agents.lean ====
section
/-! DEFINITION. What each agent's move does: host accesses to the window with command writes among them, the engine's and
the memory's moves in a running job, stores to bus memory, and the platform's reset. -/

namespace Sys2Proof.Machine

/-- A command write (rules R84, R300): the word is decoded; an illegal word is handled by name. -/
def commandWrite (cmd : Word32) (s : State) : Result :=
  match decodeWord cmd with
  | .ok i => exec i s
  | .error _ => .next (onIllegal s)

/-- A host read of `width` bytes at a host address. One outside the window is no access to the engine (rule R80); one
the window does not take gets an error response and changes nothing (rule R81). -/
def hostRead (a : Word64) (width : Nat) (s : State) : State :=
  match windowOffset s.plat.base a with
  | none => s
  | some o => if accessOk o width then windowRead o width s else { s with resp := .error }

/-- A host write of `width` bytes at a host address. A write at offset 0x008 is a command write (rule R84). -/
def hostWrite (a : Word64) (width : Nat) (v : Word64) (s : State) : Result :=
  match windowOffset s.plat.base a with
  | none => .next s
  | some o =>
    if accessOk o width then
      if o = 8 then commandWrite (v.setWidth 32) { s with resp := .done }
      else .next (windowWrite o width v { s with resp := .done })
    else .next { s with resp := .error }

/-- The engine issues the `k`-th read it has not issued yet; it issues none after it has seen an error (rule R306). -/
def issueRead (k : Nat) (s : State) : State :=
  match s.job with
  | none => s
  | some j =>
    match j.failed, j.todo[k]? with
    | none, some r => { s with job := some { j with todo := j.todo.eraseIdx k, out := j.out ++ [r] } }
    | _, _ => s

/-- The memory's answer to an outstanding read `r` at place `k`: data, an error (the first one seen is kept, rule R306),
or none (rule R307). A read with both a failing and a silent byte gives either (log 13). -/
def answerOne (j : Job) (k : Nat) (r : BusRead) (s : State) : State :=
  if r.neverAnswers s.plat then s
  else if (r.failing s.plat).isEmpty then { s with job := some { j with out := j.out.eraseIdx k } }
  else if r.hasSilent s.plat && s.coin then s.spend 1
  else
    { s.spend 2 with
      job := some
        { j with
          out := j.out.eraseIdx k
          failed := some (j.failed.getD ((s.spend 1).pickFailing (r.failing s.plat))) } }

/-- The memory answers the `k`-th outstanding read. -/
def answerRead (k : Nat) (s : State) : State :=
  match s.job with
  | none => s
  | some j =>
    match j.out[k]? with
    | none => s
    | some r => answerOne j k r s

/-- The engine ends its job where it can: every issued read is answered, and either all reads were issued (rule R309) or
an error was seen (rule R308). -/
def finishJob (s : State) : State :=
  match s.job with
  | none => s
  | some j =>
    if j.out.isEmpty then
      match j.failed with
      | some a => busFault j.cmd a s
      | none => if j.todo.isEmpty then endJob (jobBody j.cmd) j s else s
    else s

/-- The running job, if any, runs on to its end. -/
def runJob (s : State) : State :=
  match s.job with
  | none => s
  | some j => settle (jobBody j.cmd) j s

/-- A store makes the running job's reads of that byte unstable (rule R97). -/
def markRace (a : Nat) (s : State) : State :=
  match s.job with
  | none => s
  | some j => { s with job := some { j with raced := j.raced || j.reads.any (fun r => r.covers a) } }

/-- A host agent stores a byte to bus memory. Where the read port is not coherent, the store is not visible at it until
the host publishes it (rules R96, R102; log 5, 23). -/
def storeByte (a : Word64) (v : Byte) (s : State) : State :=
  markRace a.toNat
    { s with
      mem := Memory.write s.mem a.toNat v
      stale := if s.plat.coherent then s.stale else insertAddr s.stale a.toNat }

/-- One turn of `WAIT`'s loop: an 8-byte read of `STATUS`; the host goes on to `rest` where it finds `BUSY = 0`, else
the loop stays its next line (rules R116, R347). -/
def waitTurn (rest : List HostLine) (s : State) : State :=
  hostRead (s.plat.base + 0x010) 8 (if s.status.busy then s else { s with program := rest })

/-- The host program's next line; with none left the host does nothing. -/
def hostLine (s : State) : Result :=
  match s.program with
  | [] => .next s
  | .read a width :: rest => .next (hostRead a width { s with program := rest })
  | .write a width v :: rest => hostWrite a width v { s with program := rest }
  | .wait :: rest => .next (waitTurn rest s)

/-- The move with nothing scheduled: a running job runs on, and beside an idle engine the host goes on (log 17). -/
def unscheduled (s : State) : Result :=
  match s.job with
  | some _ => .next (runJob s)
  | none => hostLine s

/-- One move of an agent. -/
def perform (e : Event) (s : State) : Result :=
  match e with
  | .hostRead a width => .next (hostRead a width s)
  | .hostWrite a width v => hostWrite a width v s
  | .line => hostLine s
  | .pace eager => .next { s with eager := eager }
  | .issue k => .next (issueRead k s)
  | .answer k => .next (answerRead k s)
  | .finish => .next (finishJob s)
  | .run => .next (runJob s)
  | .store a v => .next (storeByte a v s)
  | .publish => .next { s with stale := [] }
  | .reset => .next s.resetEngine

/-- A command write scheduled as the next move: a 4-byte host write of the word at offset 0x008 (rules R84, R116). -/
def scheduleCommand (s : State) (cmd : Word32) : State :=
  { s with events := .hostWrite (s.plat.base + 8) 4 (cmd.setWidth 64) :: s.events }

end Sys2Proof.Machine
end

