-- ==== Sys2Proof/Machine/Step.lean ====
section
/-! DEFINITION. The step: the next scheduled move; with none scheduled a running job runs on, and beside an idle engine the
host's program goes on (log 17). -/

namespace Sys2Proof.Machine

/-- One step of the machine. -/
def step (s : State) : Host.Outcome State Fault Refusal :=
  match s.events with
  | [] => unscheduled s
  | e :: rest => perform e { s with events := rest }

/-- The state whose next step is the command write of the table's word `w` (log 17). -/
def State.withFetchWord (s : State) (nbits w : Nat) : State := scheduleCommand s (tableWord nbits w)

end Sys2Proof.Machine
end

