-- ==== Sys2Proof/Machine/HostProgram.lean ====
section
/-! DEFINITION. The host operations of the assembler syntax and its pseudo-operations, as the host accesses they stand for
(rules R116, R117). The host issues them line by line (`hostLine`). -/

namespace Sys2Proof.Machine

/-- The offset of a register of the map of rule R32 (the first reserved offset for the reserved ones). -/
def Reg.offset : Reg → Nat
  | .caps => 0x000
  | .cmd => 0x008
  | .status => 0x010
  | .irqen => 0x018
  | .acc => 0x020
  | .data => 0x028
  | .addr => 0x030
  | .len => 0x038
  | .crc0 => 0x040
  | .crc1 => 0x048
  | .crc2 => 0x050
  | .erraddr => 0x058
  | .reserved => 0x060
  | .mtLo k => 0x800 + 16 * k
  | .mtHi k => 0x808 + 16 * k

/-- A line of a host program (rule R116). -/
inductive HostOp where
  /-- A command line: a mnemonic, with its block size after `COMBINE`. -/
  | command (i : Instr)
  /-- `WR <REG>, <v>`. -/
  | wr (r : Reg) (v : Word64)
  /-- `WR32 <REG>.lo, <v>`. -/
  | wr32lo (r : Reg) (v : Word32)
  /-- `WR32 <REG>.hi, <v>`. -/
  | wr32hi (r : Reg) (v : Word32)
  /-- `RD <REG>`. -/
  | rd (r : Reg)
  /-- `WAIT`. -/
  | wait
  /-- `CLR <mask>`. -/
  | clr (mask : Word64)
  deriving DecidableEq, Repr

/-- The register has a name of rule R116: one of the map of rule R32, or `MT[k].lo` or `MT[k].hi` with `k` in 0..127. -/
def Reg.named : Reg → Bool
  | .reserved => false
  | .mtLo k => decide (k < 128)
  | .mtHi k => decide (k < 128)
  | .caps => true
  | .cmd => true
  | .status => true
  | .irqen => true
  | .acc => true
  | .data => true
  | .addr => true
  | .len => true
  | .crc0 => true
  | .crc1 => true
  | .crc2 => true
  | .erraddr => true

/-- The host address of a register, `d` bytes on. -/
def regAddr (base : Word64) (r : Reg) (d : Nat) : Word64 := base + BitVec.ofNat 64 (r.offset + d)

/-- A line where its register has a name. -/
def lineOf (r : Reg) (l : HostLine) : Option HostLine := if r.named then some l else none

/-- The host access a line stands for (rule R116), or none where the assembler does not take the line: it takes
`COMBINE 0` to `COMBINE 255`, and the registers that have a name. -/
def HostOp.line (base : Word64) : HostOp → Option HostLine
  | .command i =>
    if i.wellFormed then some (.write (regAddr base .cmd 0) 4 ((encode i).setWidth 64)) else none
  | .wr r v => lineOf r (.write (regAddr base r 0) 8 v)
  | .wr32lo r v => lineOf r (.write (regAddr base r 0) 4 (v.setWidth 64))
  | .wr32hi r v => lineOf r (.write (regAddr base r 4) 4 (v.setWidth 64))
  | .rd r => lineOf r (.read (regAddr base r 0) 8)
  | .wait => some .wait
  | .clr mask => some (.write (regAddr base .status 0) 8 mask)

/-- A host program assembled, or none where the assembler does not take one of its lines. -/
def programLines (base : Word64) : List HostOp → Option (List HostLine)
  | [] => some []
  | op :: p =>
    match op.line base, programLines base p with
    | some l, some ls => some (l :: ls)
    | _, _ => none

/-- `CRC32C a, l, s` (rule R117). -/
def pseudoCrc32c (a l : Word64) (s : Word32) : List HostOp :=
  [.wr .addr a, .wr .len l, .wr .acc (s.setWidth 64), .command .compute, .wait]

/-- `LANES c0, c1, c2` (rule R117). -/
def pseudoLanes (c0 c1 c2 : Word32) : List HostOp :=
  [.wr .crc0 (c0.setWidth 64), .wr .crc1 (c1.setWidth 64), .wr .crc2 (c2.setWidth 64)]

/-- `FOLD n, c0, c1, c2, w` (rule R117). -/
def pseudoFold (n : Nat) (c0 c1 c2 : Word32) (w : Word64) : List HostOp :=
  pseudoLanes c0 c1 c2 ++ [.wr .data w, .command (.combine n), .wait]

/-- `CHECKSUM a, l` (rule R117); the complement of the value read is the host's arithmetic. -/
def pseudoChecksum (a l : Word64) : List HostOp := pseudoCrc32c a l 0xFFFFFFFF#32 ++ [.rd .acc]

/-- `not32`, the host's complement of the raw result (rules R9, R344). -/
def not32 (v : Word32) : Word32 := v ^^^ 0xFFFFFFFF#32

/-- A host program is placed as the lines that the host issues next (log 17). -/
def State.withProgram (s : State) (p : List HostOp) : Option State :=
  (programLines s.plat.base p).map (fun ls => { s with program := ls ++ s.program })

end Sys2Proof.Machine
end

