-- ==== Sys2Proof/Safety.lean ====
section
/-! DEFINITION. The terms claims use: the sequential CRC, the buffer's bytes, when the engine is ready, the invariant of
the machine, the stuck state, and the polynomial view of rule R14. -/

namespace Sys2Proof.Machine

/-! ### The sequential CRC over a buffer -/

/-- `Seq(c, B)`, rule R142: `c` stepped over the bytes of `B` in order. -/
def seq (c : Word32) (b : List Byte) : Word32 := b.foldl crcByte c

/-- The `n` bytes at `a`, in address order. -/
def bytesFrom (bytes : Bytes) (a n : Nat) : List Byte := (List.range n).map (fun k => bytes (a + k))

/-- The `n` bytes of bus memory at the buffer cursor. -/
def State.buffer (s : State) (n : Nat) : List Byte := bytesFrom (Memory.read s.mem) s.addr.toNat n

/-- The bytes the prologue consumes (rules R160, R161): `u`, or none where `LEN < u`. -/
def prologueCount (a l : Nat) : Nat := if l < unalignedCount a then 0 else unalignedCount a

/-- The bytes striping consumes of `l` at an aligned cursor (rules R182, R183). -/
def stripeCount (l : Nat) : Nat := if l < 96 then 0 else 24 * (l / 24)

/-- The bytes a command consumes (rule R89). -/
def consumedCount : Instr → Nat → Nat → Nat
  | .nop, _, _ => 0
  | .step1, _, _ => 0
  | .step2, _, _ => 0
  | .step4, _, _ => 0
  | .step8, _, _ => 0
  | .prologue, a, l => prologueCount a l
  | .stripe, _, l => stripeCount l
  | .combine _, _, _ => 0
  | .epilogue, _, l => l
  | .compute, _, l => l

/-- The command writes the lane registers (rule R52): COMBINE, and striping where it engages (rule R183). -/
def lanesWritten : Instr → Nat → Nat → Bool
  | .nop, _, _ => false
  | .step1, _, _ => false
  | .step2, _, _ => false
  | .step4, _, _ => false
  | .step8, _, _ => false
  | .prologue, _, _ => false
  | .stripe, _, l => decide (96 ≤ l)
  | .combine _, _, _ => true
  | .epilogue, _, _ => false
  | .compute, a, l => decide (96 ≤ l - prologueCount a l)

/-! ### When a command runs -/

/-- What a command checks before it starts (the lines of its rule above `-- checks passed --`). -/
def commandCheck : Instr → State → Option FaultCode
  | .nop => noCheck
  | .step1 => noCheck
  | .step2 => noCheck
  | .step4 => noCheck
  | .step8 => noCheck
  | .prologue => checkBuffer
  | .stripe => checkStripe
  | .combine n => checkBlockSize n
  | .epilogue => checkEpilogue
  | .compute => checkBuffer

/-- The engine accepts a command (rule R300). -/
abbrev State.ready (s : State) : Prop := s.status.busy = false ∧ s.status.err = false

/-- The next `n` bytes at the buffer cursor answer with data and are stable for a job (rules R91, R96, R306, R307). -/
abbrev State.stableBuffer (s : State) (n : Nat) : Prop :=
  ∀ k < n, s.plat.answer (s.addr.toNat + k) = .data ∧ s.stale.contains (s.addr.toNat + k) = false

/-- The state a precondition fault leaves (rule R302). -/
def State.preconditionFault (s : State) (code : FaultCode) : State :=
  { s with
    status := { busy := false, done := false, err := true, drop := s.status.drop, errcode := code }
    erraddr := 0
    job := none }

/-- The causes of the precondition faults of a legal command word (rules R301, R303, R304, R305), each as it is reported. -/
def faultCause (i : Instr) (s : State) : FaultCode → Prop
  | .none => False
  | .illegal => False
  | .bsize => ∃ n, i = .combine n ∧ (n < 1 ∨ 128 < n)
  | .null => readsMemory i = true ∧ s.addr.toNat = 0 ∧ 0 < s.len.toNat
  | .range => readsMemory i = true ∧ 2 ^ 64 < s.addr.toNat + s.len.toNat
  | .align =>
    (i = .stripe ∨ i = .epilogue ∧ 8 ≤ s.len.toNat) ∧ s.addr.toNat % 8 ≠ 0 ∧ s.addr.toNat + s.len.toNat ≤ 2 ^ 64
  | .bus => False

/-- The state a command leaves that passed its checks and whose job is left running (rule R300). -/
def State.started (s : State) (i : Instr) : State :=
  { s with
    status := { s.status with busy := true, done := false }
    job := some
      { cmd := i
        reads := readPlan (jobBody i) s
        todo := readPlan (jobBody i) s
        out := []
        failed := none
        raced := (readPlan (jobBody i) s).any (BusRead.unstable s.plat s.stale) } }

/-- The host address of an offset in the window (rule R80). -/
abbrev State.windowAddr (s : State) (o : Nat) : Word64 := s.plat.base + BitVec.ofNat 64 o

/-- The register at offset `o` reads as `v` in each of the accesses of rule R82, and the reads change nothing but the
host's response. -/
abbrev State.readsAs (s : State) (o : Nat) (v : Word64) : Prop :=
  hostRead (s.windowAddr o) 8 s = { s with resp := .value v }
    ∧ hostRead (s.windowAddr o) 4 s = { s with resp := .value ((v.extractLsb' 0 32).setWidth 64) }
    ∧ hostRead (s.windowAddr (o + 4)) 4 s = { s with resp := .value ((v.extractLsb' 32 32).setWidth 64) }

/-- The engine's outputs and registers apart from `STATUS`, `ERRADDR` and a command's results. -/
abbrev State.sameSurroundings (s t : State) : Prop :=
  t.irqen = s.irqen ∧ t.data = s.data ∧ t.mem = s.mem ∧ t.stale = s.stale ∧ t.plat = s.plat ∧ t.events = s.events
    ∧ t.program = s.program ∧ t.resp = s.resp ∧ t.eager = s.eager

/-! ### The invariant -/

/-- Addresses rising without repeats. -/
abbrev risingAddrs (l : List Nat) : Prop := l.Pairwise (fun a b => a < b)

/-- A running job fits the registers: it passed its checks, its reads are its command's, those left are among them, and
the failing byte it has seen is a failing byte of one of them (rules R89, R300, R306). -/
def Job.fits (j : Job) (s : State) : Prop :=
  commandCheck j.cmd s = none
    ∧ j.reads = readPlan (jobBody j.cmd) s
    ∧ (∀ r ∈ j.todo ++ j.out, r ∈ j.reads)
    ∧ ∀ a, j.failed = some a → ∃ r ∈ j.reads, a ∈ r.failing s.plat

/-- The machine's invariant: memory and the list of unpublished bytes are canonical, `STATUS` is consistent (rule R35),
a job runs exactly while `BUSY = 1` (rule R46) and fits the registers, and the window is 4 KiB aligned (rule R80). -/
def State.Inv (s : State) : Prop :=
  Memory.wf s.mem = true
    ∧ risingAddrs s.stale
    ∧ s.status.ok = true
    ∧ s.job.isSome = s.status.busy
    ∧ (∀ j, s.job = some j → j.fits s)
    ∧ s.plat.base.toNat % 4096 = 0

/-- The stuck state (rule R307): the engine is busy and waits for a read that is never answered. -/
def State.stuck (s : State) : Prop :=
  s.status.busy = true ∧ ∃ j, s.job = some j ∧ ∃ r ∈ j.out, r.neverAnswers s.plat = true

/-! ### The engine's and the memory's moves -/

/-- The moves by which reads are issued and answered. -/
def Event.isReadMove : Event → Bool
  | .issue _ => true
  | .answer _ => true
  | .hostRead _ _ => false
  | .hostWrite _ _ _ => false
  | .line => false
  | .pace _ => false
  | .finish => false
  | .run => false
  | .store _ _ => false
  | .publish => false
  | .reset => false

/-- The state after a list of moves, each that stops the machine left out (none does). -/
def afterMoves (es : List Event) (s : State) : State :=
  es.foldl (fun s e => match perform e s with | .next t => t | .fault _ => s | .refused _ => s) s

/-! ### The polynomial view of rule R14 -/

open Polynomial in
/-- The polynomial of the low `n` bits of a number, bit 0 the highest-order coefficient (rules R14, R141). -/
noncomputable def reflectedPoly (n : Nat) (bit : Nat → Bool) : (ZMod 2)[X] :=
  ∑ i ∈ Finset.range n, if bit i then X ^ (n - 1 - i) else 0

open Polynomial in
/-- `P(x)`, the CRC32-C generator (rule R14). -/
noncomputable def crcGenerator : (ZMod 2)[X] :=
  X ^ 32 + X ^ 28 + X ^ 27 + X ^ 26 + X ^ 25 + X ^ 23 + X ^ 22 + X ^ 20 + X ^ 19 + X ^ 18 + X ^ 14 + X ^ 13 + X ^ 11
    + X ^ 10 + X ^ 9 + X ^ 8 + X ^ 6 + 1

open Polynomial in
/-- `poly32`, rule R14. -/
noncomputable def poly32 (c : Word32) : (ZMod 2)[X] := reflectedPoly 32 c.getLsbD

open Polynomial in
/-- `poly64`, rule R14. -/
noncomputable def poly64 (w : Word64) : (ZMod 2)[X] := reflectedPoly 64 w.getLsbD

open Polynomial in
/-- `poly8`, rule R140. -/
noncomputable def poly8 (b : Byte) : (ZMod 2)[X] := reflectedPoly 8 b.getLsbD

end Sys2Proof.Machine
end

