-- ==== Sys2Proof/Certificates/Slice0/Obligations.lean ====
section
/-! DEFINITION. The statements for the provers, each from the spec's numbered rules. -/

open Sys2Proof Sys2Proof.Machine

/-! ### The command word -/

/-- Rules R110, R111, R113: the decoder reads every well-formed command back from its command word. -/
def Obligations.DecodeOfEncode : Prop :=
  ∀ i : Instr, i.wellFormed = true → decodeWord (encode i) = .ok i

/-- Rules R111, R112, R113: a word that decodes is the word of the command it decodes to, and that command is well formed. -/
def Obligations.EncodeOfDecode : Prop :=
  ∀ (w : Word32) (i : Instr), decodeWord w = .ok i → encode i = w ∧ i.wellFormed = true

/-- Rule R114: which words are illegal, and that an illegal word, accepted, faults ILLEGAL and changes no register but
`STATUS` and `ERRADDR`. -/
def Obligations.IllegalWordsFault : Prop :=
  ∀ w : Word32,
    (illegalWord w = true ↔
      opField w ∉ [0x00#8, 0x01#8, 0x02#8, 0x03#8, 0x04#8, 0x10#8, 0x11#8, 0x12#8, 0x13#8, 0x14#8]
        ∨ (opField w ≠ 0x12#8 ∧ nField w ≠ 0#8) ∨ rsvField w ≠ 0#16)
      ∧ ∀ s : State, illegalWord w = true → s.status.busy = false → s.status.err = false →
          commandWrite w s = .next (s.preconditionFault .illegal)

/-- Rule R113: no command word is covered by two rows of the opcode map. -/
def Obligations.NoWordHasTwoMeanings : Prop :=
  opcodeMap.Pairwise (fun r q => ∀ w : Word32, ¬ (r.covers w = true ∧ q.covers w = true))

/-- Rule R118: the worked encodings. -/
def Obligations.WorkedEncodings : Prop :=
  decodeWord 0x00000014#32 = .ok .compute ∧ decodeWord 0x00000004#32 = .ok .step8
    ∧ decodeWord 0x00000112#32 = .ok (.combine 1) ∧ decodeWord 0x00008012#32 = .ok (.combine 128)
    ∧ decodeWord 0x00008112#32 = .ok (.combine 129) ∧ decodeWord 0x00000012#32 = .ok (.combine 0)
    ∧ decodeWord 0x00000114#32 = .error .nonzeroN ∧ decodeWord 0x00010000#32 = .error .nonzeroReserved
    ∧ decodeWord 0x00000005#32 = .error .unknownOpcode
    ∧ ∀ s : State, s.status.busy = false → s.status.err = false →
        commandWrite 0x00008112#32 s = .next (s.preconditionFault .bsize)
          ∧ commandWrite 0x00000012#32 s = .next (s.preconditionFault .bsize)

/-! ### The step -/

/-- Rule R84: a 4- or 8-byte host write at offset 0x008 is a command write of its low 32 bits, handled once: the step is
`exec` of the decoded command, or the handling of an illegal word, with the event used up and the write answered; a
4-byte write at 0x00C does nothing. -/
def Obligations.StepRunsTheDecodedCommand : Prop :=
  ∀ (s : State) (rest : List Event) (width : Nat) (v : Word64),
    (width = 4 ∨ width = 8 → s.events = .hostWrite (s.windowAddr 0x008) width v :: rest →
      (∀ i, decodeWord (v.setWidth 32) = .ok i → step s = exec i { s with events := rest, resp := .done })
        ∧ ∀ e, decodeWord (v.setWidth 32) = .error e → step s = .next (onIllegal { s with events := rest, resp := .done }))
      ∧ (s.events = .hostWrite (s.windowAddr 0x00C) 4 v :: rest → step s = .next { s with events := rest, resp := .done })

/-- The state that the model lays a command word out in runs exactly that command on its next step (log 17). -/
def Obligations.ScheduledWordRunsNext : Prop :=
  ∀ (s : State) (nbits w : Nat) (i : Instr),
    decodeTableWord nbits w = some i → step (s.withFetchWord nbits w) = exec i { s with resp := .done }

/-- Rules R300, R309, R315: no step of the machine stops it; every fault of the spec is reported in `STATUS`. -/
def Obligations.StepNeverStops : Prop :=
  ∀ s : State, ∃ t, step s = .next t

/-! ### Acceptance and precondition faults -/

/-- Rule R300: a command write while busy or in error changes only `DROP`; otherwise it is accepted, an illegal word or a
failed check faults within the step, and a command that passes its checks starts its job with `BUSY = 1`. The job's end
is a later step (rule R315), but for a STEPn, COMBINE or NOP in the form of DeferredJobAgrees (rule R309). -/
def Obligations.CommandWriteAcceptance : Prop :=
  ∀ (w : Word32) (s : State),
    (s.status.busy = true ∨ s.status.err = true →
      commandWrite w s = .next { s with status := { s.status with drop := true } })
      ∧ (s.status.busy = false → s.status.err = false →
        (illegalWord w = true → commandWrite w s = .next (s.preconditionFault .illegal))
          ∧ ∀ i, decodeWord w = .ok i →
            (∀ c, commandCheck i s = some c → commandWrite w s = .next (s.preconditionFault c))
              ∧ (commandCheck i s = none → readsMemory i = true ∨ s.eager = false →
                commandWrite w s = .next (s.started i)))

/-- Rules R302, R304, R305 (and the order of R301): an accepted command reports a precondition fault exactly for its
causes, and the fault is precise. -/
def Obligations.PreconditionFaultCauses : Prop :=
  ∀ (i : Instr) (s : State) (c : FaultCode), s.status.busy = false → s.status.err = false →
    (exec i s = .next (s.preconditionFault c) ↔ faultCause i s c)

/-! ### The Word Stepper -/

/-- Rules R144 to R147: the words and the results of STEP1, STEP2, STEP4, STEP8; nothing else changes. Completion is in the
acceptance step or in a later one (rule R309; log 1). -/
def Obligations.StepCommandResults : Prop :=
  decodeWord 0x00000001#32 = .ok .step1 ∧ decodeWord 0x00000002#32 = .ok .step2
    ∧ decodeWord 0x00000003#32 = .ok .step4 ∧ decodeWord 0x00000004#32 = .ok .step8
    ∧ ∀ s : State, s.ready →
      (s.eager = true →
        exec .step1 s = .next { s with acc := stepBytes s.acc s.data 1, status := { s.status with busy := false, done := true }, job := none }
          ∧ exec .step2 s = .next { s with acc := stepBytes s.acc s.data 2, status := { s.status with busy := false, done := true }, job := none }
          ∧ exec .step4 s = .next { s with acc := stepBytes s.acc s.data 4, status := { s.status with busy := false, done := true }, job := none }
          ∧ exec .step8 s = .next { s with acc := stepBytes s.acc s.data 8, status := { s.status with busy := false, done := true }, job := none })
        ∧ (s.eager = false →
          ∀ p ∈ [(Instr.step1, 1), (.step2, 2), (.step4, 4), (.step8, 8)],
            exec p.1 s = .next (s.started p.1)
              ∧ runJob (s.started p.1) =
                { s with acc := stepBytes s.acc s.data p.2, status := { s.status with busy := false, done := true }, job := none })

/-- Rule R142: linearity, seed as data, concatenation, and the sequence law of `StepBytes`. -/
def Obligations.StepBytesLaws : Prop :=
  (∀ (c c' : Word32) (w w' : Word64) (n : Nat),
    stepBytes (c ^^^ c') (w ^^^ w') n = stepBytes c w n ^^^ stepBytes c' w' n)
    ∧ (∀ n : Nat, stepBytes 0 0 n = 0)
    ∧ (∀ (c : Word32) (w : Word64) (n : Nat), 4 ≤ n → n ≤ 8 → stepBytes c w n = stepBytes 0 (w ^^^ c.setWidth 64) n)
    ∧ (∀ (c : Word32) (w : Word64) (a b : Nat), a + b ≤ 8 →
      stepBytes (stepBytes c w a) (w >>> (8 * a)) b = stepBytes c w (a + b))
    ∧ ∀ (c : Word32) (w : Word64) (n : Nat), n ≤ 8 →
      stepBytes c w n = seq c ((List.range n).map (fun k => w.extractLsb' (8 * k) 8))

open Polynomial in
/-- Rule R140, its polynomial view: the byte step multiplies by `x^8`, adds the byte times `x^32` and reduces mod `P`. -/
def Obligations.CrcBytePolynomial : Prop :=
  ∀ (c : Word32) (b : Byte), poly32 (crcByte c b) = (poly32 c * X ^ 8 + poly8 b * X ^ 32) %ₘ crcGenerator

open Polynomial in
/-- Rule R141, its polynomial view, for every width 1 to 8. -/
def Obligations.StepBytesPolynomial : Prop :=
  ∀ (c : Word32) (w : Word64) (n : Nat), 1 ≤ n → n ≤ 8 →
    poly32 (stepBytes c w n) = (poly32 c * X ^ (8 * n) + reflectedPoly (8 * n) w.getLsbD * X ^ 32) %ₘ crcGenerator

/-! ### NOP -/

/-- Rule R252: NOP's word; it changes no register and sets `DONE`, in its acceptance step or in a later one (rule R309;
log 1); it is dropped like any command. -/
def Obligations.NopResult : Prop :=
  decodeWord 0x00000000#32 = .ok .nop
    ∧ ∀ s : State,
      (s.ready → s.eager = true →
        exec .nop s = .next { s with status := { s.status with busy := false, done := true }, job := none })
        ∧ (s.ready → s.eager = false →
          exec .nop s = .next (s.started .nop)
            ∧ runJob (s.started .nop) = { s with status := { s.status with busy := false, done := true }, job := none })
        ∧ (s.ready → s.eager = true → s.status.word = 0 → ∃ t, exec .nop s = .next t ∧ t.status.word = 2)
        ∧ (s.status.busy = true ∨ s.status.err = true →
          exec .nop s = .next { s with status := { s.status with drop := true } })

/-! ### The Combine Step -/

/-- Rule R210: the carry-less product is commutative, distributes over `xor`, and is below `2^63` for 32-bit operands. -/
def Obligations.CarrylessProductLaws : Prop :=
  (∀ a b : Word64, clmul a b = clmul b a)
    ∧ (∀ a b c : Word64, clmul a (b ^^^ c) = clmul a b ^^^ clmul a c)
    ∧ ∀ a b : Word64, a.toNat < 2 ^ 32 → b.toNat < 2 ^ 32 → (clmul a b).toNat < 2 ^ 63

open Polynomial in
/-- Rule R45: for every block size `n`, the ROM's entry is the pair of the two powers of `x`, its upper halves zero, and
the host finds it at offset 0x800 + 16(n - 1). -/
def Obligations.MultiplierRomFormula : Prop :=
  ∀ n : Nat, 1 ≤ n → n ≤ 128 →
    poly32 ((romEntry (n - 1)).extractLsb' 0 32) = X ^ (128 * n - 33) %ₘ crcGenerator
      ∧ poly32 ((romEntry (n - 1)).extractLsb' 64 32) = X ^ (64 * n - 33) %ₘ crcGenerator
      ∧ (romEntry (n - 1)).extractLsb' 32 32 = 0 ∧ (romEntry (n - 1)).extractLsb' 96 32 = 0
      ∧ ∀ s : State,
        hostRead (s.windowAddr (0x800 + 16 * (n - 1))) 8 s = { s with resp := .value ((romEntry (n - 1)).extractLsb' 0 64) }
          ∧ hostRead (s.windowAddr (0x808 + 16 * (n - 1))) 8 s = { s with resp := .value ((romEntry (n - 1)).extractLsb' 64 64) }

/-- Rule R212: with lane words as in rule R180, lane 0 seeded with `c`, and lane 2 holding back its last word, Combine is
the sequential CRC of all `24n` bytes of the block, for every `n` in 1..128. -/
def Obligations.CombineEqualsSequential : Prop :=
  ∀ (bytes : Bytes) (a n : Nat) (c : Word32), 1 ≤ n → n ≤ 128 →
    combine (seq c (bytesFrom bytes a (8 * n))) (seq 0 (bytesFrom bytes (a + 8 * n) (8 * n)))
        (seq 0 (bytesFrom bytes (a + 16 * n) (8 * (n - 1)))) (readLE bytes (a + 8 * (3 * n - 1)) 8) n
      = seq c (bytesFrom bytes a (24 * n))

/-- Rule R213: COMBINE's word; with `n` in 1..128 it merges into `ACC` and `CRC0`, zeroes `CRC1` and `CRC2`, and changes
nothing else, in its acceptance step or in a later one (rule R309; log 1); outside, it faults BSIZE and changes no
register but `STATUS` and `ERRADDR`. -/
def Obligations.CombineResult : Prop :=
  ∀ (n : Nat) (s t : State),
    t =
      { s with
        acc := combine s.crc0 s.crc1 s.crc2 s.data n
        crc0 := combine s.crc0 s.crc1 s.crc2 s.data n
        crc1 := 0
        crc2 := 0
        status := { s.status with busy := false, done := true }
        job := none } →
    (n ≤ 255 → decodeWord (0x00000012#32 ||| (BitVec.ofNat 32 n <<< 8)) = .ok (.combine n))
      ∧ (1 ≤ n → n ≤ 128 → s.ready → s.eager = true → exec (.combine n) s = .next t)
      ∧ (1 ≤ n → n ≤ 128 → s.ready → s.eager = false →
        exec (.combine n) s = .next (s.started (.combine n)) ∧ runJob (s.started (.combine n)) = t)
      ∧ (n < 1 ∨ 128 < n → s.ready → exec (.combine n) s = .next (s.preconditionFault .bsize))

/-! ### Prologue, striping, epilogue -/

/-- Rule R163: PROLOGUE consumes nothing or exactly `u` bytes, `ACC` is the sequential CRC over them, nothing else
changes, and afterwards a misaligned `ADDR` implies `LEN < 8`. -/
def Obligations.PrologueResult : Prop :=
  ∀ s : State, s.ready → commandCheck .prologue s = none →
    s.stableBuffer (prologueCount s.addr.toNat s.len.toNat) →
    exec .prologue s = .next (s.started .prologue)
      ∧ runJob (s.started .prologue) =
        { s with
          acc := seq s.acc (s.buffer (prologueCount s.addr.toNat s.len.toNat))
          addr := s.addr + BitVec.ofNat 64 (prologueCount s.addr.toNat s.len.toNat)
          len := s.len - BitVec.ofNat 64 (prologueCount s.addr.toNat s.len.toNat)
          status := { s.status with busy := false, done := true }
          job := none }
      ∧ ((runJob (s.started .prologue)).addr.toNat % 8 ≠ 0 → (runJob (s.started .prologue)).len.toNat < 8)

/-- Rule R186: STRIPE at or above the threshold: the sequential CRC of the whole strides in `ACC` and `CRC0`, lanes 1 and
2 zero, the cursor past the strides, nothing else changed; every byte of the strides is read exactly once, in 8-byte
reads, and no other byte. -/
def Obligations.StripeResult : Prop :=
  ∀ s : State, s.ready → commandCheck .stripe s = none → 96 ≤ s.len.toNat →
    (s.stableBuffer (24 * (s.len.toNat / 24)) →
      exec .stripe s = .next (s.started .stripe)
        ∧ runJob (s.started .stripe) =
        { s with
          acc := seq s.acc (s.buffer (24 * (s.len.toNat / 24)))
          crc0 := seq s.acc (s.buffer (24 * (s.len.toNat / 24)))
          crc1 := 0
          crc2 := 0
          addr := s.addr + BitVec.ofNat 64 (24 * (s.len.toNat / 24))
          len := BitVec.ofNat 64 (s.len.toNat % 24)
          status := { s.status with busy := false, done := true }
          job := none })
      ∧ (∀ r ∈ readPlan stripeBody s, r.width = 8)
      ∧ ((readPlan stripeBody s).flatMap BusRead.bytes).Perm (List.range' s.addr.toNat (24 * (s.len.toNat / 24)))

/-- Rule R183: STRIPE below the threshold completes and changes no register but `STATUS`, whatever memory answers. -/
def Obligations.StripeBelowThreshold : Prop :=
  ∀ s : State, s.ready → commandCheck .stripe s = none → s.len.toNat < 96 →
    exec .stripe s = .next (s.started .stripe)
      ∧ runJob (s.started .stripe) = { s with status := { s.status with busy := false, done := true }, job := none }

/-- Rule R233: EPILOGUE consumes the whole buffer into `ACC`; nothing else changes. -/
def Obligations.EpilogueResult : Prop :=
  ∀ s : State, s.ready → commandCheck .epilogue s = none → s.stableBuffer s.len.toNat →
    exec .epilogue s = .next (s.started .epilogue)
      ∧ runJob (s.started .epilogue) =
      { s with
        acc := seq s.acc (s.buffer s.len.toNat)
        addr := s.addr + s.len
        len := 0
        status := { s.status with busy := false, done := true }
        job := none }

/-- Rule R231: the tail read takes exactly the `r` bytes, one read each of 4, 2 and 1 bytes, at increasing addresses; its
word holds them low byte first and zeros above, and the mask changes nothing. -/
def Obligations.TailReadIsExact : Prop :=
  ∀ (bytes : Bytes) (a r : Nat), 1 ≤ r → r ≤ 7 →
    (tailReads bytes a r).reads.flatMap BusRead.bytes = List.range' a r
      ∧ ((tailReads bytes a r).reads.map BusRead.width).Sublist [4, 2, 1]
      ∧ (∀ k < r, (readTail bytes a r).extractLsb' (8 * k) 8 = bytes (a + k))
      ∧ readTail bytes a r >>> (8 * r) = 0
      ∧ readTail bytes a r = (tailReads bytes a r).word

/-! ### COMPUTE -/

/-- Rule R255 (with R250): the result of COMPUTE is the sequential CRC of the buffer; the cursor is past it, `LEN` is 0;
the lane registers are as striping leaves them where it engages, else unchanged; nothing else changes. That `CRC0` keeps
the value striping leaves is the model's reading of R250 (log 25). -/
def Obligations.ComputeResult : Prop :=
  ∀ s : State, s.ready → commandCheck .compute s = none → s.stableBuffer s.len.toNat →
    exec .compute s = .next (s.started .compute)
      ∧ runJob (s.started .compute) =
      { s with
        acc := seq s.acc (s.buffer s.len.toNat)
        addr := s.addr + s.len
        len := 0
        crc0 :=
          if s.len.toNat - prologueCount s.addr.toNat s.len.toNat < 96 then s.crc0
          else seq s.acc (s.buffer (prologueCount s.addr.toNat s.len.toNat
            + stripeCount (s.len.toNat - prologueCount s.addr.toNat s.len.toNat)))
        crc1 := if s.len.toNat - prologueCount s.addr.toNat s.len.toNat < 96 then s.crc1 else 0
        crc2 := if s.len.toNat - prologueCount s.addr.toNat s.len.toNat < 96 then s.crc2 else 0
        status := { s.status with busy := false, done := true }
        job := none }

/-- Rule R254: with `LEN = 0`, COMPUTE reads nothing and changes no register but `STATUS`, at any `ADDR`. -/
def Obligations.ComputeZeroLength : Prop :=
  ∀ s : State, s.ready → s.len = 0 →
    readPlan computeBody s = []
      ∧ exec .compute s = .next (s.started .compute)
      ∧ runJob (s.started .compute) = { s with status := { s.status with busy := false, done := true }, job := none }

/-- Rule R256: a COMPUTE over the first `k` bytes, run to its end, then, with only `LEN` rewritten, one over the rest, give
the result of one COMPUTE over the whole buffer. -/
def Obligations.ComputeContinuation : Prop :=
  ∀ (s : State) (k : Nat), s.ready → commandCheck .compute s = none → s.stableBuffer s.len.toNat → k ≤ s.len.toNat →
    ∃ d t e u c v,
      exec .compute { s with len := BitVec.ofNat 64 k } = .next d ∧ runJob d = t
        ∧ exec .compute { t with len := s.len - BitVec.ofNat 64 k } = .next e ∧ runJob e = u
        ∧ exec .compute s = .next c ∧ runJob c = v
        ∧ t.status.done = true ∧ u.status.done = true ∧ u.acc = v.acc ∧ u.addr = v.addr ∧ u.len = v.len

/-- Rule R257: the result depends on the buffer's bytes and the seed only, not on where the buffer lies. -/
def Obligations.ComputeAlignmentIndependence : Prop :=
  ∀ s t : State, s.ready → t.ready → commandCheck .compute s = none → commandCheck .compute t = none →
    s.stableBuffer s.len.toNat → t.stableBuffer t.len.toNat → s.acc = t.acc → s.len = t.len →
    s.buffer s.len.toNat = t.buffer t.len.toNat →
    ∃ d e, exec .compute s = .next d ∧ exec .compute t = .next e ∧ (runJob d).status.done = true
      ∧ (runJob e).status.done = true ∧ (runJob d).acc = (runJob e).acc

/-- Rule R258: with a stable buffer, earlier values of the lane registers cannot affect a COMPUTE's results. -/
def Obligations.ComputeIgnoresLaneRegisters : Prop :=
  ∀ (s : State) (x y z : Word32), s.ready → s.stableBuffer s.len.toNat →
    ∃ d e, exec .compute s = .next d ∧ exec .compute { s with crc0 := x, crc1 := y, crc2 := z } = .next e
      ∧ (runJob d).acc = (runJob e).acc ∧ (runJob d).addr = (runJob e).addr ∧ (runJob d).len = (runJob e).len
      ∧ (runJob d).status = (runJob e).status ∧ (runJob d).erraddr = (runJob e).erraddr

/-! ### What a command reads and writes -/

/-- Rule R89: a command that passes its checks reads each byte it consumes exactly once and no other byte, and the bytes
it consumes are those that `LEN` at its end no longer counts: all of them for EPILOGUE and COMPUTE. -/
def Obligations.ReadSetIsExact : Prop :=
  ∀ (i : Instr) (s : State), commandCheck i s = none →
    ((readPlan (jobBody i) s).flatMap BusRead.bytes).Perm
      (List.range' s.addr.toNat (consumedCount i s.addr.toNat s.len.toNat))
      ∧ (∀ b : Bytes, (jobBody i b (Run.load s)).len + consumedCount i s.addr.toNat s.len.toNat = s.len.toNat)
      ∧ (i = .epilogue ∨ i = .compute → ∀ b : Bytes, (jobBody i b (Run.load s)).len = 0)

/-- Rules R90, R251: the widths of each command's reads, and that COMPUTE, STRIPE and EPILOGUE issue no misaligned
8-byte read. -/
def Obligations.ReadWidthsAndAlignment : Prop :=
  ∀ s : State,
    (∀ i ∈ [Instr.nop, .step1, .step2, .step4, .step8], readPlan (jobBody i) s = [])
      ∧ (∀ n, readPlan (jobBody (.combine n)) s = [])
      ∧ ((readPlan prologueBody s).map BusRead.width).Sublist [4, 2, 1]
      ∧ (∀ r ∈ readPlan stripeBody s, r.width = 8)
      ∧ (∃ tail : List Nat, tail.Sublist [4, 2, 1]
        ∧ (readPlan epilogueBody s).map BusRead.width = List.replicate (s.len.toNat / 8) 8 ++ tail)
      ∧ ∀ i ∈ [Instr.stripe, .epilogue, .compute], commandCheck i s = none →
        ∀ r ∈ readPlan (jobBody i) s, r.width = 8 → r.addr % 8 = 0

/-- Rule R350: COMPUTE makes at most `LEN div 8 + 6` reads. -/
def Obligations.ComputeReadBound : Prop :=
  ∀ s : State, (readPlan computeBody s).length ≤ s.len.toNat / 8 + 6

/-- Rules R89, R95: which reads a command makes does not depend on the bytes it reads. -/
def Obligations.ReadsDoNotDependOnData : Prop :=
  ∀ (i : Instr) (b b' : Bytes) (r : Run), (jobBody i b r).reads = (jobBody i b' r).reads

/-- Rule R97: a command's result is a function of its registers and of the bytes it reads alone. -/
def Obligations.ResultDependsOnBytesReadOnly : Prop :=
  ∀ (i : Instr) (b b' : Bytes) (r : Run),
    (∀ q ∈ (jobBody i b r).reads, ∀ a ∈ q.bytes, b a = b' a) → jobBody i b r = jobBody i b' r

/-- Rule R40: throughout a command `ADDR + LEN` keeps its value. -/
def Obligations.AddrPlusLenIsKept : Prop :=
  ∀ (i : Instr) (b : Bytes) (r : Run), (jobBody i b r).addr + (jobBody i b r).len = r.addr + r.len

/-- Rule R52: a command that completes, in its acceptance step or as its job runs on, changes no register outside its row:
never `DATA`, `IRQEN`, `ERRADDR`, memory; `ACC` only where the row has it; `ADDR` and `LEN` only for the memory commands,
and no result register where no byte is consumed; the lane registers only for COMBINE and where striping engages. -/
def Obligations.WriteSets : Prop :=
  ∀ (i : Instr) (s t : State), s.ready →
    (exec i s = .next t ∨ commandCheck i s = none ∧ t = runJob (s.started i)) → t.status.done = true →
    s.sameSurroundings t ∧ t.erraddr = s.erraddr ∧ (∀ a, Memory.read t.mem a = Memory.read s.mem a)
      ∧ (i = .nop → t.acc = s.acc)
      ∧ (readsMemory i = false → t.addr = s.addr ∧ t.len = s.len)
      ∧ (readsMemory i = true → consumedCount i s.addr.toNat s.len.toNat = 0 →
        t.acc = s.acc ∧ t.addr = s.addr ∧ t.len = s.len)
      ∧ (lanesWritten i s.addr.toNat s.len.toNat = false → t.crc0 = s.crc0 ∧ t.crc1 = s.crc1 ∧ t.crc2 = s.crc2)

/-- Rule R86: the engine never writes memory; only a store by another agent changes it, and that changes the stored byte
alone. -/
def Obligations.EngineNeverWritesMemory : Prop :=
  (∀ s t : State, step s = .next t → (∀ a v rest, s.events ≠ .store a v :: rest) → t.mem = s.mem)
    ∧ ∀ (s t : State) (a : Word64) (v : Byte) (rest : List Event), Memory.wf s.mem = true →
      s.events = .store a v :: rest → step s = .next t →
      Memory.read t.mem a.toNat = v ∧ ∀ b, b ≠ a.toNat → Memory.read t.mem b = Memory.read s.mem b

/-! ### Bus errors, no answer, the end of a job -/

/-- Rules R306, R308: where a read of the command fails and none goes unanswered, the command's job runs on to a BUS fault
with a failing byte of its reads in `ERRADDR`; `DATA`, `IRQEN` and memory are unchanged, and the lane registers too
except for STRIPE and COMPUTE; the other result registers hold free values (log 9). -/
def Obligations.BusFaultReport : Prop :=
  ∀ (i : Instr) (s : State), s.ready → commandCheck i s = none →
    (∃ r ∈ readPlan (jobBody i) s, r.failing s.plat ≠ []) →
    (∀ r ∈ readPlan (jobBody i) s, r.hasSilent s.plat = false) →
    exec i s = .next (s.started i) ∧ ∃ t, runJob (s.started i) = t
      ∧ t.status = { busy := false, done := false, err := true, drop := s.status.drop, errcode := .bus }
      ∧ (∃ r ∈ readPlan (jobBody i) s, ∃ a ∈ r.failing s.plat, t.erraddr = BitVec.ofNat 64 a)
      ∧ t.job = none ∧ s.sameSurroundings t
      ∧ (i ≠ .stripe → i ≠ .compute → t.crc0 = s.crc0 ∧ t.crc1 = s.crc1 ∧ t.crc2 = s.crc2)

/-- Rule R307: where a read of the command is never answered and none fails, its job runs on to the stuck state, with
`BUSY = 1`. That the registers then hold their values at acceptance is the model's (log 11: results are computed at a
job's end); of the result registers no host read shows it (rule R51). -/
def Obligations.SilentReadHangs : Prop :=
  ∀ (i : Instr) (s : State), s.ready → commandCheck i s = none →
    (∃ r ∈ readPlan (jobBody i) s, r.hasSilent s.plat = true) →
    (∀ r ∈ readPlan (jobBody i) s, r.failing s.plat = []) →
    exec i s = .next (s.started i) ∧ ∃ t, runJob (s.started i) = t ∧ t.stuck ∧ s.sameSurroundings t
      ∧ t.status = (s.started i).status ∧ t.erraddr = s.erraddr
      ∧ t.acc = s.acc ∧ t.addr = s.addr ∧ t.len = s.len ∧ t.crc0 = s.crc0 ∧ t.crc1 = s.crc1 ∧ t.crc2 = s.crc2

/-- Rule R307: only reset leaves the stuck state; while stuck every command write is dropped and, in a state of the
invariant, `IRQ` is not asserted. -/
def Obligations.OnlyResetLeavesStuck : Prop :=
  ∀ s : State, s.stuck →
    (∀ t, step s = .next t → s.events.head? ≠ some .reset → t.stuck)
      ∧ (∀ rest, s.events = .reset :: rest → ∃ t, step s = .next t ∧ t.status.busy = false ∧ t.job = none)
      ∧ (∀ w, commandWrite w s = .next { s with status := { s.status with drop := true } })
      ∧ (s.Inv → s.irq = false)

/-- Rules R309, R350: a running job whose reads all answer, with data or an error, ends. Rule R350 says only that it ends
after finitely many steps of the engine; that with nothing scheduled it ends in one step of the machine is the model's
choice (log 17). -/
def Obligations.AnsweredJobEnds : Prop :=
  ∀ (s : State) (j : Job), s.job = some j → (∀ r ∈ j.todo ++ j.out, r.hasSilent s.plat = false) → s.events = [] →
    ∃ t, step s = .next t ∧ t.job = none ∧ t.status.busy = false
      ∧ (t.status.done = true ∨ t.status.err = true ∧ t.status.errcode = .bus)

/-- Rule R309 (log 1): a STEPn, COMBINE or NOP that completes in its acceptance step leaves what its job, started and then
run on, leaves. -/
def Obligations.DeferredJobAgrees : Prop :=
  ∀ (i : Instr) (s : State), s.ready → commandCheck i s = none → readsMemory i = false → s.eager = true →
    exec i s = .next (runJob (s.started i))

/-- Rules R95, R306, R308, R309: a job's end waits for the answer to every read issued; a completion needs every read
issued; after an error was seen no read is issued, and the job ends in a BUS fault at the failing byte seen. -/
def Obligations.JobEndsOnlyWhenAnswered : Prop :=
  ∀ (s : State) (j : Job), s.job = some j →
    (j.out ≠ [] → finishJob s = s)
      ∧ (j.failed = none → j.todo ≠ [] → finishJob s = s)
      ∧ (∀ k r, j.failed = none → j.todo[k]? = some r →
        issueRead k s = { s with job := some { j with todo := j.todo.eraseIdx k, out := j.out ++ [r] } })
      ∧ (∀ k r, j.out[k]? = some r → r.failing s.plat = [] → r.hasSilent s.plat = false →
        answerRead k s = { s with job := some { j with out := j.out.eraseIdx k } })
      ∧ (∀ k r, j.out[k]? = some r → r.failing s.plat ≠ [] → r.hasSilent s.plat = false →
        ∃ t a, answerRead k s = t ∧ t.job = some { j with out := j.out.eraseIdx k, failed := some a }
          ∧ (j.failed = some a ∨ j.failed = none ∧ a ∈ r.failing s.plat))
      ∧ (∀ k r, j.out[k]? = some r → r.neverAnswers s.plat = true → answerRead k s = s)
      ∧ (∀ a, j.failed = some a →
        (∀ k, issueRead k s = s)
          ∧ (j.out = [] →
            (finishJob s).status = { s.status with busy := false, err := true, errcode := .bus }
              ∧ (finishJob s).erraddr = BitVec.ofNat 64 a ∧ (finishJob s).job = none))
      ∧ (j.failed = none → j.todo = [] → j.out = [] →
        (finishJob s).status = { s.status with busy := false, done := true } ∧ (finishJob s).job = none)

/-- Rules R95, R187: a job whose reads all answer with data, none of them a device's or unpublished, has one result, in
whatever order its reads are issued and answered. -/
def Obligations.AnyReadOrderSameResult : Prop :=
  ∀ (i : Instr) (s : State) (es : List Event), s.ready → commandCheck i s = none →
    (∀ r ∈ readPlan (jobBody i) s,
      r.failing s.plat = [] ∧ r.hasSilent s.plat = false ∧ r.unstable s.plat s.stale = false) →
    (∀ e ∈ es, e.isReadMove = true) →
    (∃ j, (afterMoves es (s.started i)).job = some j ∧ j.todo = [] ∧ j.out = []) →
    finishJob (afterMoves es (s.started i)) = runJob (s.started i)

/-- Rules R97, R345 (log 10): a store to a byte that a running job reads is a race, and the job goes on; a raced job whose
reads are all answered completes with free values in `ACC`, `ADDR` and `LEN`, and in the lane registers where striping
engaged; nothing else changes. -/
def Obligations.RaceFreesTheResult : Prop :=
  ∀ (s : State) (j : Job), s.job = some j →
    (∀ (a : Word64) (v : Byte), (∃ r ∈ j.reads, r.covers a.toNat = true) →
      ∃ t, perform (.store a v) s = .next t ∧ t.job = some { j with raced := true })
      ∧ (j.raced = true → j.failed = none → j.todo = [] → j.out = [] → (∀ n, j.cmd ≠ .combine n) →
        ∃ t, finishJob s = t ∧ t.acc = (Config.draw s.draws).setWidth 32 ∧ t.addr = Config.draw (s.draws + 1)
          ∧ t.len = Config.draw (s.draws + 2)
          ∧ (lanesWritten j.cmd s.addr.toNat s.len.toNat = true →
            t.crc0 = (Config.draw (s.draws + 3)).setWidth 32 ∧ t.crc1 = (Config.draw (s.draws + 4)).setWidth 32
              ∧ t.crc2 = (Config.draw (s.draws + 5)).setWidth 32)
          ∧ (lanesWritten j.cmd s.addr.toNat s.len.toNat = false →
            t.crc0 = s.crc0 ∧ t.crc1 = s.crc1 ∧ t.crc2 = s.crc2)
          ∧ t.status = { s.status with busy := false, done := true } ∧ t.erraddr = s.erraddr ∧ t.job = none
          ∧ s.sameSurroundings t)

/-- Rules R91, R96, R102 (log 5, 10, 18): a command that reads a byte whose reads have side effects, or a byte that is
stored and not yet visible at the read port, starts a job that, where every read answers with data, completes with free
values as its results; where the port is not coherent a store is not visible until the host publishes it. -/
def Obligations.UnstableReadsFreeTheResult : Prop :=
  (∀ (i : Instr) (s : State), s.ready → commandCheck i s = none →
    (∃ r ∈ readPlan (jobBody i) s, ∃ a ∈ r.bytes, s.plat.answer a = .device ∨ a ∈ s.stale) →
    exec i s = .next (s.started i) ∧ (∃ j, (s.started i).job = some j ∧ j.raced = true)
      ∧ ((∀ r ∈ readPlan (jobBody i) s, r.failing s.plat = [] ∧ r.hasSilent s.plat = false) →
        ∃ t, runJob (s.started i) = t ∧ t.acc = (Config.draw s.draws).setWidth 32 ∧ t.addr = Config.draw (s.draws + 1)
          ∧ t.len = Config.draw (s.draws + 2)
          ∧ (lanesWritten i s.addr.toNat s.len.toNat = true →
            t.crc0 = (Config.draw (s.draws + 3)).setWidth 32 ∧ t.crc1 = (Config.draw (s.draws + 4)).setWidth 32
              ∧ t.crc2 = (Config.draw (s.draws + 5)).setWidth 32)
          ∧ (lanesWritten i s.addr.toNat s.len.toNat = false →
            t.crc0 = s.crc0 ∧ t.crc1 = s.crc1 ∧ t.crc2 = s.crc2)
          ∧ t.status = { s.status with busy := false, done := true } ∧ t.erraddr = s.erraddr ∧ t.job = none
          ∧ s.sameSurroundings t))
    ∧ (∀ (s : State) (a : Word64) (v : Byte),
      (s.plat.coherent = false → ∃ t, perform (.store a v) s = .next t ∧ a.toNat ∈ t.stale
        ∧ ∀ b, b ≠ a.toNat → (b ∈ t.stale ↔ b ∈ s.stale))
        ∧ (s.plat.coherent = true → ∃ t, perform (.store a v) s = .next t ∧ t.stale = s.stale))
    ∧ ∀ s : State, perform .publish s = .next { s with stale := [] }

/-! ### Reset, STATUS, the interrupt output -/

/-- Rules R50, R341: the reset state; `CAPS` and `MT` read their constants in it. -/
def Obligations.ResetValues : Prop :=
  capsValue = 0x0000000001048008#64 ∧ State.reset.status.word = 0 ∧ State.reset.irqen = 0 ∧ State.reset.acc = 0
    ∧ State.reset.data = 0 ∧ State.reset.addr = 0 ∧ State.reset.len = 0 ∧ State.reset.crc0 = 0 ∧ State.reset.crc1 = 0
    ∧ State.reset.crc2 = 0 ∧ State.reset.erraddr = 0 ∧ State.reset.job = none ∧ State.reset.irq = false
    ∧ hostRead (State.reset.windowAddr 0x000) 8 State.reset = { State.reset with resp := .value capsValue }
    ∧ ∀ k : Nat, k < 128 →
      hostRead (State.reset.windowAddr (0x800 + 16 * k)) 8 State.reset
          = { State.reset with resp := .value ((romEntry k).extractLsb' 0 64) }
        ∧ hostRead (State.reset.windowAddr (0x808 + 16 * k)) 8 State.reset
          = { State.reset with resp := .value ((romEntry k).extractLsb' 64 64) }

/-- Rules R340, R342: the platform's reset is one step from any state, the stuck state among them: every register takes
its reset value, a running job is abandoned, `IRQ` deasserts, memory is unaffected. That the platform's parameters stay
is the model's choice (log 19). -/
def Obligations.ResetStep : Prop :=
  ∀ (s : State) (rest : List Event), s.events = .reset :: rest →
    ∃ t, step s = .next t ∧ t.status = Status.reset ∧ t.irqen = 0 ∧ t.acc = 0 ∧ t.data = 0 ∧ t.addr = 0 ∧ t.len = 0
      ∧ t.crc0 = 0 ∧ t.crc1 = 0 ∧ t.crc2 = 0 ∧ t.erraddr = 0 ∧ t.job = none ∧ t.irq = false
      ∧ t.mem = s.mem ∧ t.plat = s.plat

/-- Rules R313, R82, R83: a host write of `STATUS`, of 8 bytes or of its lower 4, clears the W1C bits it sets, clearing
`ERR` zeroes `ERRCODE` in the same write, `ERRADDR` and every other register keep their values; a write of its upper
4 bytes has no effect; while `ERR = 1` no command write raises a fault. -/
def Obligations.ReturnFromFault : Prop :=
  ∀ (s : State) (v : Word64),
    (∀ width ∈ [4, 8],
      hostWrite (s.windowAddr 0x010) width v s = .next
        { s with
          status :=
            { busy := s.status.busy
              done := s.status.done && !v.getLsbD 1
              err := s.status.err && !v.getLsbD 2
              drop := s.status.drop && !v.getLsbD 3
              errcode := if v.getLsbD 2 then .none else s.status.errcode }
          resp := .done })
      ∧ hostWrite (s.windowAddr 0x014) 4 v s = .next { s with resp := .done }
      ∧ (s.status.err = true → ∀ w, commandWrite w s = .next { s with status := { s.status with drop := true } })

/-- Rules R35, R303: the bits of `STATUS` as a host read finds them, at any time, and the numbers of the fault codes. -/
def Obligations.StatusReadsItsFields : Prop :=
  ∀ s : State,
    hostRead (s.windowAddr 0x010) 8 s = { s with resp := .value s.status.word }
      ∧ s.status.word.getLsbD 0 = s.status.busy ∧ s.status.word.getLsbD 1 = s.status.done
      ∧ s.status.word.getLsbD 2 = s.status.err ∧ s.status.word.getLsbD 3 = s.status.drop
      ∧ (∀ p ∈ [(FaultCode.none, 0#4), (.illegal, 1#4), (.bsize, 2#4), (.null, 3#4), (.range, 4#4), (.align, 5#4), (.bus, 6#4)],
        s.status.errcode = p.1 → s.status.word.extractLsb' 8 4 = p.2)
      ∧ s.status.word.extractLsb' 4 4 = 0 ∧ s.status.word.extractLsb' 12 52 = 0

/-- Rules R310, R311: `IRQ` is the function of `STATUS` and `IRQEN` of rule R310 in every state. After a command it is
asserted at a completion exactly where `DONE_IE` is set and at a fault exactly where `ERR_IE` is set; it is deasserted
while the job runs and when the status bits are cleared; a drop does not change it. -/
def Obligations.InterruptFollowsStatus : Prop :=
  (∀ s : State, s.irq = true ↔
    s.status.done = true ∧ s.irqen.getLsbD 0 = true ∨ s.status.err = true ∧ s.irqen.getLsbD 1 = true)
    ∧ ∀ (i : Instr) (s t : State), s.ready →
      (exec i s = .next t ∨ commandCheck i s = none ∧ t = runJob (s.started i)) →
      (t.status.done = true → t.irq = s.irqen.getLsbD 0)
        ∧ (t.status.err = true → t.irq = s.irqen.getLsbD 1)
        ∧ (t.status.busy = true → t.irq = false)
        ∧ (∀ v : Word64, v.getLsbD 1 = true → v.getLsbD 2 = true → (t.clearStatus v).irq = false)
        ∧ t.dropWrite.irq = t.irq

/-! ### The register window -/

/-- Rules R32, R82: what an idle host write of `DATA`, `ADDR` and `LEN` stores, whole or by halves; the two halves, in
either order, leave what one whole write leaves, and a half write keeps the other half. -/
def Obligations.HalfWritesCompose : Prop :=
  ∀ s : State, s.status.busy = false →
    (∀ v : Word64,
      hostWrite (s.windowAddr 0x028) 8 v s = .next { s with data := v, resp := .done }
        ∧ hostWrite (s.windowAddr 0x028) 4 v s
          = .next { s with data := s.data.extractLsb' 32 32 ++ v.extractLsb' 0 32, resp := .done }
        ∧ hostWrite (s.windowAddr 0x02C) 4 v s
          = .next { s with data := v.extractLsb' 0 32 ++ s.data.extractLsb' 0 32, resp := .done }
        ∧ hostWrite (s.windowAddr 0x030) 8 v s = .next { s with addr := v, resp := .done }
        ∧ hostWrite (s.windowAddr 0x030) 4 v s
          = .next { s with addr := s.addr.extractLsb' 32 32 ++ v.extractLsb' 0 32, resp := .done }
        ∧ hostWrite (s.windowAddr 0x034) 4 v s
          = .next { s with addr := v.extractLsb' 0 32 ++ s.addr.extractLsb' 0 32, resp := .done }
        ∧ hostWrite (s.windowAddr 0x038) 8 v s = .next { s with len := v, resp := .done }
        ∧ hostWrite (s.windowAddr 0x038) 4 v s
          = .next { s with len := s.len.extractLsb' 32 32 ++ v.extractLsb' 0 32, resp := .done }
        ∧ hostWrite (s.windowAddr 0x03C) 4 v s
          = .next { s with len := v.extractLsb' 0 32 ++ s.len.extractLsb' 0 32, resp := .done })
      ∧ ∀ (o : Nat) (lo hi : Word64), o ∈ [0x028, 0x030, 0x038] →
        windowWrite (o + 4) 4 hi (windowWrite o 4 lo s) = windowWrite o 8 (hi.extractLsb' 0 32 ++ lo.extractLsb' 0 32) s
          ∧ windowWrite o 4 lo (windowWrite (o + 4) 4 hi s) = windowWrite o 8 (hi.extractLsb' 0 32 ++ lo.extractLsb' 0 32) s
          ∧ windowRead o 8 (windowWrite o 8 lo s) = { windowWrite o 8 lo s with resp := .value lo }
          ∧ windowRead (o + 4) 4 (windowWrite o 8 lo s) =
            { windowWrite o 8 lo s with resp := .value ((lo.extractLsb' 32 32).setWidth 64) }

/-- Rules R32, R83: what an idle host write of `ACC` and `CRC0` to `CRC2` stores; their upper halves ignore idle writes of
either width, and read 0. That they read 0 also while a job runs, where rule R51 has a read return any value, is the
model's reading of R51 with R37 and R83 (log 8). Writes of `CAPS`, `ERRADDR` and `MT` and of the reserved offsets are
ignored at any time. -/
def Obligations.NarrowAndReadOnlyRegisters : Prop :=
  ∀ (s : State) (v : Word64),
    (s.status.busy = false →
      (∀ width ∈ [4, 8],
        hostWrite (s.windowAddr 0x020) width v s = .next { s with acc := v.setWidth 32, resp := .done }
          ∧ hostWrite (s.windowAddr 0x040) width v s = .next { s with crc0 := v.setWidth 32, resp := .done }
          ∧ hostWrite (s.windowAddr 0x048) width v s = .next { s with crc1 := v.setWidth 32, resp := .done }
          ∧ hostWrite (s.windowAddr 0x050) width v s = .next { s with crc2 := v.setWidth 32, resp := .done })
        ∧ ∀ o ∈ [0x020, 0x040, 0x048, 0x050], hostWrite (s.windowAddr (o + 4)) 4 v s = .next { s with resp := .done })
      ∧ (∀ o ∈ [0x020, 0x040, 0x048, 0x050],
        (hostRead (s.windowAddr (o + 4)) 4 s).resp = .value 0
          ∧ ∃ x : Word32, (hostRead (s.windowAddr o) 8 s).resp = .value (x.setWidth 64))
      ∧ ∀ o width, accessOk o width = true → o < 8 ∨ (0x058 ≤ o ∧ o < 4096) →
        hostWrite (s.windowAddr o) width v s = .next { s with resp := .done }

/-- Rules R32, R34, R85: `CMD` and the reserved offsets 0x060 .. 0x7FF read 0 at any time, and a host read of any width at
any address changes nothing but the host's response (and the count of free values used). -/
def Obligations.HostReadsHaveNoEffect : Prop :=
  ∀ (s : State) (width : Nat),
    (∀ o, accessOk o width = true → (8 ≤ o ∧ o < 16) ∨ (0x060 ≤ o ∧ o < 0x800) →
      hostRead (s.windowAddr o) width s = { s with resp := .value 0 })
      ∧ ∀ a, { hostRead a width s with resp := s.resp, draws := s.draws } = s

/-- Rule R81: an access of another width or not naturally aligned gets an error response and changes nothing. -/
def Obligations.RefusedAccesses : Prop :=
  ∀ (s : State) (o width : Nat) (v : Word64), o < 4096 →
    ¬ ((width = 4 ∧ o % 4 = 0) ∨ (width = 8 ∧ o % 8 = 0)) →
    hostRead (s.windowAddr o) width s = { s with resp := .error }
      ∧ hostWrite (s.windowAddr o) width v s = .next { s with resp := .error }

/-- Rules R314, R36: while a job runs, a host write of an operand or lane register is dropped (one of the upper half of a
32-bit register too, log 15), and one of a read-only or reserved offset is ignored; while none runs, a register write is
never dropped. A write of `IRQEN` takes effect at any time, and one of its upper half has no effect. -/
def Obligations.HostWritesDuringAJob : Prop :=
  ∀ (s : State) (v : Word64),
    (∀ o width, accessOk o width = true → o < 4096 →
      (s.status.busy = true →
        (0x020 ≤ o → o < 0x058 →
          hostWrite (s.windowAddr o) width v s = .next { s with status := { s.status with drop := true }, resp := .done })
          ∧ (o < 8 ∨ 0x058 ≤ o → hostWrite (s.windowAddr o) width v s = .next { s with resp := .done }))
        ∧ (s.status.busy = false → ¬ (o < 0x020) →
          ∃ t, hostWrite (s.windowAddr o) width v s = .next t ∧ t.status = s.status))
      ∧ (∀ width ∈ [4, 8], hostWrite (s.windowAddr 0x018) width v s = .next { s with irqen := v.setWidth 2, resp := .done })
      ∧ hostWrite (s.windowAddr 0x01C) 4 v s = .next { s with resp := .done }

/-- Rules R32, R51, R82: what a host read returns, by the register at each offset: `CAPS`, `CMD`, `STATUS`, `IRQEN`, `DATA`,
`ERRADDR`, `MT` and the reserved offsets their exact values at any time, the other registers theirs while no job runs;
while one runs those return the next free value (log 7), with a 32-bit register's upper half 0, which is the model's
reading of rule R51 with R37 and R83 (log 8). -/
def Obligations.ExactHostReads : Prop :=
  ∀ s : State,
    (s.readsAs 0x000 0x0000000001048008#64 ∧ s.readsAs 0x008 0 ∧ s.readsAs 0x010 s.status.word
      ∧ s.readsAs 0x018 (s.irqen.setWidth 64) ∧ s.readsAs 0x028 s.data ∧ s.readsAs 0x058 s.erraddr)
      ∧ (∀ k : Nat, k < 128 →
        s.readsAs (0x800 + 16 * k) ((romEntry k).extractLsb' 0 64)
          ∧ s.readsAs (0x808 + 16 * k) ((romEntry k).extractLsb' 64 64))
      ∧ (∀ o : Nat, 0x060 ≤ o → o < 0x800 → o % 8 = 0 → s.readsAs o 0)
      ∧ (s.status.busy = false →
        s.readsAs 0x020 (s.acc.setWidth 64) ∧ s.readsAs 0x030 s.addr ∧ s.readsAs 0x038 s.len
          ∧ s.readsAs 0x040 (s.crc0.setWidth 64) ∧ s.readsAs 0x048 (s.crc1.setWidth 64)
          ∧ s.readsAs 0x050 (s.crc2.setWidth 64))
      ∧ (s.status.busy = true →
        (∀ o ∈ [0x030, 0x038],
          hostRead (s.windowAddr o) 8 s = { s with resp := .value (Config.draw s.draws), draws := s.draws + 1 })
          ∧ ∀ o ∈ [0x020, 0x040, 0x048, 0x050],
            hostRead (s.windowAddr o) 8 s
              = { s with resp := .value (((Config.draw s.draws).setWidth 32).setWidth 64), draws := s.draws + 1 })

/-! ### Host programs -/

/-- Rule R116 (log 17): a command line of the assembler is a 4-byte write of its command word at offset 0x008, and `WAIT`
reads `STATUS` until `BUSY = 0`; how the host's lines take their turn is the model's choice (log 17). -/
def Obligations.HostProgramLines : Prop :=
  (∀ (base : Word64) (i : Instr),
    (i.wellFormed = true → HostOp.line base (.command i) = some (.write (base + 8) 4 ((encode i).setWidth 64)))
      ∧ (i.wellFormed = false → HostOp.line base (.command i) = none))
    ∧ ∀ (s : State) (rest : List HostLine) (es : List Event),
      (s.program = .wait :: rest →
        (s.status.busy = true → hostLine s = .next { s with resp := .value s.status.word })
          ∧ (s.status.busy = false → hostLine s = .next { s with program := rest, resp := .value s.status.word }))
        ∧ (∀ a width, s.program = .read a width :: rest →
          hostLine s = .next (hostRead a width { s with program := rest }))
        ∧ (∀ a width v, s.program = .write a width v :: rest →
          hostLine s = hostWrite a width v { s with program := rest })
        ∧ (s.program = [] → hostLine s = .next s)
        ∧ (s.events = .line :: es → step s = hostLine { s with events := es })
        ∧ (s.events = [] → s.job = none → step s = hostLine s)
        ∧ (∀ j, s.events = [] → s.job = some j → step s = .next (runJob s))
        ∧ (s.events = .run :: es → step s = .next (runJob { s with events := es }))

/-! ### The invariant -/

/-- The invariant holds at reset. -/
def Obligations.InvariantAtReset : Prop := State.reset.Inv

/-- Every step, from every state of the invariant, leaves a state of the invariant (rules R35, R46, R80, R89, R306). -/
def Obligations.InvariantKeptByStep : Prop :=
  ∀ s t : State, s.Inv → step s = .next t → t.Inv
end

