-- ==== Sys2Proof/Laws/State.lean ====
section
/-! SUPPORT. The fields of the state after each of its named updates, one lemma per field and update, so that no proof
unfolds a record update. -/

namespace Sys2Proof.Machine

/-! ### `State.dropWrite` -/

@[simp] theorem State.dropWrite_status (s : State) : (s.dropWrite).status = { s.status with drop := true } := rfl
@[simp] theorem State.dropWrite_irqen (s : State) : (s.dropWrite).irqen = s.irqen := rfl
@[simp] theorem State.dropWrite_acc (s : State) : (s.dropWrite).acc = s.acc := rfl
@[simp] theorem State.dropWrite_data (s : State) : (s.dropWrite).data = s.data := rfl
@[simp] theorem State.dropWrite_addr (s : State) : (s.dropWrite).addr = s.addr := rfl
@[simp] theorem State.dropWrite_len (s : State) : (s.dropWrite).len = s.len := rfl
@[simp] theorem State.dropWrite_crc0 (s : State) : (s.dropWrite).crc0 = s.crc0 := rfl
@[simp] theorem State.dropWrite_crc1 (s : State) : (s.dropWrite).crc1 = s.crc1 := rfl
@[simp] theorem State.dropWrite_crc2 (s : State) : (s.dropWrite).crc2 = s.crc2 := rfl
@[simp] theorem State.dropWrite_erraddr (s : State) : (s.dropWrite).erraddr = s.erraddr := rfl
@[simp] theorem State.dropWrite_job (s : State) : (s.dropWrite).job = s.job := rfl
@[simp] theorem State.dropWrite_mem (s : State) : (s.dropWrite).mem = s.mem := rfl
@[simp] theorem State.dropWrite_stale (s : State) : (s.dropWrite).stale = s.stale := rfl
@[simp] theorem State.dropWrite_plat (s : State) : (s.dropWrite).plat = s.plat := rfl
@[simp] theorem State.dropWrite_events (s : State) : (s.dropWrite).events = s.events := rfl
@[simp] theorem State.dropWrite_program (s : State) : (s.dropWrite).program = s.program := rfl
@[simp] theorem State.dropWrite_resp (s : State) : (s.dropWrite).resp = s.resp := rfl
@[simp] theorem State.dropWrite_eager (s : State) : (s.dropWrite).eager = s.eager := rfl
@[simp] theorem State.dropWrite_draws (s : State) : (s.dropWrite).draws = s.draws := rfl

/-! ### `State.accept` -/

@[simp] theorem State.accept_status (s : State) : (s.accept).status = { s.status with done := false } := rfl
@[simp] theorem State.accept_irqen (s : State) : (s.accept).irqen = s.irqen := rfl
@[simp] theorem State.accept_acc (s : State) : (s.accept).acc = s.acc := rfl
@[simp] theorem State.accept_data (s : State) : (s.accept).data = s.data := rfl
@[simp] theorem State.accept_addr (s : State) : (s.accept).addr = s.addr := rfl
@[simp] theorem State.accept_len (s : State) : (s.accept).len = s.len := rfl
@[simp] theorem State.accept_crc0 (s : State) : (s.accept).crc0 = s.crc0 := rfl
@[simp] theorem State.accept_crc1 (s : State) : (s.accept).crc1 = s.crc1 := rfl
@[simp] theorem State.accept_crc2 (s : State) : (s.accept).crc2 = s.crc2 := rfl
@[simp] theorem State.accept_erraddr (s : State) : (s.accept).erraddr = s.erraddr := rfl
@[simp] theorem State.accept_job (s : State) : (s.accept).job = s.job := rfl
@[simp] theorem State.accept_mem (s : State) : (s.accept).mem = s.mem := rfl
@[simp] theorem State.accept_stale (s : State) : (s.accept).stale = s.stale := rfl
@[simp] theorem State.accept_plat (s : State) : (s.accept).plat = s.plat := rfl
@[simp] theorem State.accept_events (s : State) : (s.accept).events = s.events := rfl
@[simp] theorem State.accept_program (s : State) : (s.accept).program = s.program := rfl
@[simp] theorem State.accept_resp (s : State) : (s.accept).resp = s.resp := rfl
@[simp] theorem State.accept_eager (s : State) : (s.accept).eager = s.eager := rfl
@[simp] theorem State.accept_draws (s : State) : (s.accept).draws = s.draws := rfl

/-! ### `State.raiseFault` -/

@[simp] theorem State.raiseFault_status (s : State) (c : FaultCode) (a : Nat) : (s.raiseFault c a).status = { s.status with busy := false, err := true, errcode := c } := rfl
@[simp] theorem State.raiseFault_irqen (s : State) (c : FaultCode) (a : Nat) : (s.raiseFault c a).irqen = s.irqen := rfl
@[simp] theorem State.raiseFault_acc (s : State) (c : FaultCode) (a : Nat) : (s.raiseFault c a).acc = s.acc := rfl
@[simp] theorem State.raiseFault_data (s : State) (c : FaultCode) (a : Nat) : (s.raiseFault c a).data = s.data := rfl
@[simp] theorem State.raiseFault_addr (s : State) (c : FaultCode) (a : Nat) : (s.raiseFault c a).addr = s.addr := rfl
@[simp] theorem State.raiseFault_len (s : State) (c : FaultCode) (a : Nat) : (s.raiseFault c a).len = s.len := rfl
@[simp] theorem State.raiseFault_crc0 (s : State) (c : FaultCode) (a : Nat) : (s.raiseFault c a).crc0 = s.crc0 := rfl
@[simp] theorem State.raiseFault_crc1 (s : State) (c : FaultCode) (a : Nat) : (s.raiseFault c a).crc1 = s.crc1 := rfl
@[simp] theorem State.raiseFault_crc2 (s : State) (c : FaultCode) (a : Nat) : (s.raiseFault c a).crc2 = s.crc2 := rfl
@[simp] theorem State.raiseFault_erraddr (s : State) (c : FaultCode) (a : Nat) : (s.raiseFault c a).erraddr = BitVec.ofNat 64 a := rfl
@[simp] theorem State.raiseFault_job (s : State) (c : FaultCode) (a : Nat) : (s.raiseFault c a).job = none := rfl
@[simp] theorem State.raiseFault_mem (s : State) (c : FaultCode) (a : Nat) : (s.raiseFault c a).mem = s.mem := rfl
@[simp] theorem State.raiseFault_stale (s : State) (c : FaultCode) (a : Nat) : (s.raiseFault c a).stale = s.stale := rfl
@[simp] theorem State.raiseFault_plat (s : State) (c : FaultCode) (a : Nat) : (s.raiseFault c a).plat = s.plat := rfl
@[simp] theorem State.raiseFault_events (s : State) (c : FaultCode) (a : Nat) : (s.raiseFault c a).events = s.events := rfl
@[simp] theorem State.raiseFault_program (s : State) (c : FaultCode) (a : Nat) : (s.raiseFault c a).program = s.program := rfl
@[simp] theorem State.raiseFault_resp (s : State) (c : FaultCode) (a : Nat) : (s.raiseFault c a).resp = s.resp := rfl
@[simp] theorem State.raiseFault_eager (s : State) (c : FaultCode) (a : Nat) : (s.raiseFault c a).eager = s.eager := rfl
@[simp] theorem State.raiseFault_draws (s : State) (c : FaultCode) (a : Nat) : (s.raiseFault c a).draws = s.draws := rfl

/-! ### `State.complete` -/

@[simp] theorem State.complete_status (s : State) : (s.complete).status = { s.status with busy := false, done := true } := rfl
@[simp] theorem State.complete_irqen (s : State) : (s.complete).irqen = s.irqen := rfl
@[simp] theorem State.complete_acc (s : State) : (s.complete).acc = s.acc := rfl
@[simp] theorem State.complete_data (s : State) : (s.complete).data = s.data := rfl
@[simp] theorem State.complete_addr (s : State) : (s.complete).addr = s.addr := rfl
@[simp] theorem State.complete_len (s : State) : (s.complete).len = s.len := rfl
@[simp] theorem State.complete_crc0 (s : State) : (s.complete).crc0 = s.crc0 := rfl
@[simp] theorem State.complete_crc1 (s : State) : (s.complete).crc1 = s.crc1 := rfl
@[simp] theorem State.complete_crc2 (s : State) : (s.complete).crc2 = s.crc2 := rfl
@[simp] theorem State.complete_erraddr (s : State) : (s.complete).erraddr = s.erraddr := rfl
@[simp] theorem State.complete_job (s : State) : (s.complete).job = none := rfl
@[simp] theorem State.complete_mem (s : State) : (s.complete).mem = s.mem := rfl
@[simp] theorem State.complete_stale (s : State) : (s.complete).stale = s.stale := rfl
@[simp] theorem State.complete_plat (s : State) : (s.complete).plat = s.plat := rfl
@[simp] theorem State.complete_events (s : State) : (s.complete).events = s.events := rfl
@[simp] theorem State.complete_program (s : State) : (s.complete).program = s.program := rfl
@[simp] theorem State.complete_resp (s : State) : (s.complete).resp = s.resp := rfl
@[simp] theorem State.complete_eager (s : State) : (s.complete).eager = s.eager := rfl
@[simp] theorem State.complete_draws (s : State) : (s.complete).draws = s.draws := rfl

/-! ### `State.spend` -/

@[simp] theorem State.spend_status (s : State) (n : Nat) : (s.spend n).status = s.status := rfl
@[simp] theorem State.spend_irqen (s : State) (n : Nat) : (s.spend n).irqen = s.irqen := rfl
@[simp] theorem State.spend_acc (s : State) (n : Nat) : (s.spend n).acc = s.acc := rfl
@[simp] theorem State.spend_data (s : State) (n : Nat) : (s.spend n).data = s.data := rfl
@[simp] theorem State.spend_addr (s : State) (n : Nat) : (s.spend n).addr = s.addr := rfl
@[simp] theorem State.spend_len (s : State) (n : Nat) : (s.spend n).len = s.len := rfl
@[simp] theorem State.spend_crc0 (s : State) (n : Nat) : (s.spend n).crc0 = s.crc0 := rfl
@[simp] theorem State.spend_crc1 (s : State) (n : Nat) : (s.spend n).crc1 = s.crc1 := rfl
@[simp] theorem State.spend_crc2 (s : State) (n : Nat) : (s.spend n).crc2 = s.crc2 := rfl
@[simp] theorem State.spend_erraddr (s : State) (n : Nat) : (s.spend n).erraddr = s.erraddr := rfl
@[simp] theorem State.spend_job (s : State) (n : Nat) : (s.spend n).job = s.job := rfl
@[simp] theorem State.spend_mem (s : State) (n : Nat) : (s.spend n).mem = s.mem := rfl
@[simp] theorem State.spend_stale (s : State) (n : Nat) : (s.spend n).stale = s.stale := rfl
@[simp] theorem State.spend_plat (s : State) (n : Nat) : (s.spend n).plat = s.plat := rfl
@[simp] theorem State.spend_events (s : State) (n : Nat) : (s.spend n).events = s.events := rfl
@[simp] theorem State.spend_program (s : State) (n : Nat) : (s.spend n).program = s.program := rfl
@[simp] theorem State.spend_resp (s : State) (n : Nat) : (s.spend n).resp = s.resp := rfl
@[simp] theorem State.spend_eager (s : State) (n : Nat) : (s.spend n).eager = s.eager := rfl
@[simp] theorem State.spend_draws (s : State) (n : Nat) : (s.spend n).draws = s.draws + n := rfl

/-! ### `State.drawResults` -/

@[simp] theorem State.drawResults_status (s : State) (lanes : Bool) : (s.drawResults lanes).status = s.status := rfl
@[simp] theorem State.drawResults_irqen (s : State) (lanes : Bool) : (s.drawResults lanes).irqen = s.irqen := rfl
@[simp] theorem State.drawResults_acc (s : State) (lanes : Bool) : (s.drawResults lanes).acc = (Config.draw s.draws).setWidth 32 := rfl
@[simp] theorem State.drawResults_data (s : State) (lanes : Bool) : (s.drawResults lanes).data = s.data := rfl
@[simp] theorem State.drawResults_addr (s : State) (lanes : Bool) : (s.drawResults lanes).addr = Config.draw (s.draws + 1) := rfl
@[simp] theorem State.drawResults_len (s : State) (lanes : Bool) : (s.drawResults lanes).len = Config.draw (s.draws + 2) := rfl
@[simp] theorem State.drawResults_crc0 (s : State) (lanes : Bool) : (s.drawResults lanes).crc0 = if lanes then (Config.draw (s.draws + 3)).setWidth 32 else s.crc0 := rfl
@[simp] theorem State.drawResults_crc1 (s : State) (lanes : Bool) : (s.drawResults lanes).crc1 = if lanes then (Config.draw (s.draws + 4)).setWidth 32 else s.crc1 := rfl
@[simp] theorem State.drawResults_crc2 (s : State) (lanes : Bool) : (s.drawResults lanes).crc2 = if lanes then (Config.draw (s.draws + 5)).setWidth 32 else s.crc2 := rfl
@[simp] theorem State.drawResults_erraddr (s : State) (lanes : Bool) : (s.drawResults lanes).erraddr = s.erraddr := rfl
@[simp] theorem State.drawResults_job (s : State) (lanes : Bool) : (s.drawResults lanes).job = s.job := rfl
@[simp] theorem State.drawResults_mem (s : State) (lanes : Bool) : (s.drawResults lanes).mem = s.mem := rfl
@[simp] theorem State.drawResults_stale (s : State) (lanes : Bool) : (s.drawResults lanes).stale = s.stale := rfl
@[simp] theorem State.drawResults_plat (s : State) (lanes : Bool) : (s.drawResults lanes).plat = s.plat := rfl
@[simp] theorem State.drawResults_events (s : State) (lanes : Bool) : (s.drawResults lanes).events = s.events := rfl
@[simp] theorem State.drawResults_program (s : State) (lanes : Bool) : (s.drawResults lanes).program = s.program := rfl
@[simp] theorem State.drawResults_resp (s : State) (lanes : Bool) : (s.drawResults lanes).resp = s.resp := rfl
@[simp] theorem State.drawResults_eager (s : State) (lanes : Bool) : (s.drawResults lanes).eager = s.eager := rfl
@[simp] theorem State.drawResults_draws (s : State) (lanes : Bool) : (s.drawResults lanes).draws = s.draws + 6 := rfl

/-! ### `State.clearStatus` -/

@[simp] theorem State.clearStatus_status (s : State) (v : Word64) : (s.clearStatus v).status = { s.status with done := s.status.done && !v.getLsbD 1, err := s.status.err && !v.getLsbD 2, drop := s.status.drop && !v.getLsbD 3, errcode := if v.getLsbD 2 then .none else s.status.errcode } := rfl
@[simp] theorem State.clearStatus_irqen (s : State) (v : Word64) : (s.clearStatus v).irqen = s.irqen := rfl
@[simp] theorem State.clearStatus_acc (s : State) (v : Word64) : (s.clearStatus v).acc = s.acc := rfl
@[simp] theorem State.clearStatus_data (s : State) (v : Word64) : (s.clearStatus v).data = s.data := rfl
@[simp] theorem State.clearStatus_addr (s : State) (v : Word64) : (s.clearStatus v).addr = s.addr := rfl
@[simp] theorem State.clearStatus_len (s : State) (v : Word64) : (s.clearStatus v).len = s.len := rfl
@[simp] theorem State.clearStatus_crc0 (s : State) (v : Word64) : (s.clearStatus v).crc0 = s.crc0 := rfl
@[simp] theorem State.clearStatus_crc1 (s : State) (v : Word64) : (s.clearStatus v).crc1 = s.crc1 := rfl
@[simp] theorem State.clearStatus_crc2 (s : State) (v : Word64) : (s.clearStatus v).crc2 = s.crc2 := rfl
@[simp] theorem State.clearStatus_erraddr (s : State) (v : Word64) : (s.clearStatus v).erraddr = s.erraddr := rfl
@[simp] theorem State.clearStatus_job (s : State) (v : Word64) : (s.clearStatus v).job = s.job := rfl
@[simp] theorem State.clearStatus_mem (s : State) (v : Word64) : (s.clearStatus v).mem = s.mem := rfl
@[simp] theorem State.clearStatus_stale (s : State) (v : Word64) : (s.clearStatus v).stale = s.stale := rfl
@[simp] theorem State.clearStatus_plat (s : State) (v : Word64) : (s.clearStatus v).plat = s.plat := rfl
@[simp] theorem State.clearStatus_events (s : State) (v : Word64) : (s.clearStatus v).events = s.events := rfl
@[simp] theorem State.clearStatus_program (s : State) (v : Word64) : (s.clearStatus v).program = s.program := rfl
@[simp] theorem State.clearStatus_resp (s : State) (v : Word64) : (s.clearStatus v).resp = s.resp := rfl
@[simp] theorem State.clearStatus_eager (s : State) (v : Word64) : (s.clearStatus v).eager = s.eager := rfl
@[simp] theorem State.clearStatus_draws (s : State) (v : Word64) : (s.clearStatus v).draws = s.draws := rfl

/-! ### `State.resetEngine` -/

@[simp] theorem State.resetEngine_status (s : State) : (s.resetEngine).status = State.reset.status := rfl
@[simp] theorem State.resetEngine_irqen (s : State) : (s.resetEngine).irqen = State.reset.irqen := rfl
@[simp] theorem State.resetEngine_acc (s : State) : (s.resetEngine).acc = State.reset.acc := rfl
@[simp] theorem State.resetEngine_data (s : State) : (s.resetEngine).data = State.reset.data := rfl
@[simp] theorem State.resetEngine_addr (s : State) : (s.resetEngine).addr = State.reset.addr := rfl
@[simp] theorem State.resetEngine_len (s : State) : (s.resetEngine).len = State.reset.len := rfl
@[simp] theorem State.resetEngine_crc0 (s : State) : (s.resetEngine).crc0 = State.reset.crc0 := rfl
@[simp] theorem State.resetEngine_crc1 (s : State) : (s.resetEngine).crc1 = State.reset.crc1 := rfl
@[simp] theorem State.resetEngine_crc2 (s : State) : (s.resetEngine).crc2 = State.reset.crc2 := rfl
@[simp] theorem State.resetEngine_erraddr (s : State) : (s.resetEngine).erraddr = State.reset.erraddr := rfl
@[simp] theorem State.resetEngine_job (s : State) : (s.resetEngine).job = State.reset.job := rfl
@[simp] theorem State.resetEngine_mem (s : State) : (s.resetEngine).mem = s.mem := rfl
@[simp] theorem State.resetEngine_stale (s : State) : (s.resetEngine).stale = s.stale := rfl
@[simp] theorem State.resetEngine_plat (s : State) : (s.resetEngine).plat = s.plat := rfl
@[simp] theorem State.resetEngine_events (s : State) : (s.resetEngine).events = s.events := rfl
@[simp] theorem State.resetEngine_program (s : State) : (s.resetEngine).program = s.program := rfl
@[simp] theorem State.resetEngine_resp (s : State) : (s.resetEngine).resp = s.resp := rfl
@[simp] theorem State.resetEngine_eager (s : State) : (s.resetEngine).eager = s.eager := rfl
@[simp] theorem State.resetEngine_draws (s : State) : (s.resetEngine).draws = s.draws := rfl

/-! ### `Run.store` -/

@[simp] theorem Run.store_status (r : Run) (s : State) : (r.store s).status = s.status := rfl
@[simp] theorem Run.store_irqen (r : Run) (s : State) : (r.store s).irqen = s.irqen := rfl
@[simp] theorem Run.store_acc (r : Run) (s : State) : (r.store s).acc = r.acc := rfl
@[simp] theorem Run.store_data (r : Run) (s : State) : (r.store s).data = s.data := rfl
@[simp] theorem Run.store_addr (r : Run) (s : State) : (r.store s).addr = BitVec.ofNat 64 r.addr := rfl
@[simp] theorem Run.store_len (r : Run) (s : State) : (r.store s).len = BitVec.ofNat 64 r.len := rfl
@[simp] theorem Run.store_crc0 (r : Run) (s : State) : (r.store s).crc0 = r.crc0 := rfl
@[simp] theorem Run.store_crc1 (r : Run) (s : State) : (r.store s).crc1 = r.crc1 := rfl
@[simp] theorem Run.store_crc2 (r : Run) (s : State) : (r.store s).crc2 = r.crc2 := rfl
@[simp] theorem Run.store_erraddr (r : Run) (s : State) : (r.store s).erraddr = s.erraddr := rfl
@[simp] theorem Run.store_job (r : Run) (s : State) : (r.store s).job = s.job := rfl
@[simp] theorem Run.store_mem (r : Run) (s : State) : (r.store s).mem = s.mem := rfl
@[simp] theorem Run.store_stale (r : Run) (s : State) : (r.store s).stale = s.stale := rfl
@[simp] theorem Run.store_plat (r : Run) (s : State) : (r.store s).plat = s.plat := rfl
@[simp] theorem Run.store_events (r : Run) (s : State) : (r.store s).events = s.events := rfl
@[simp] theorem Run.store_program (r : Run) (s : State) : (r.store s).program = s.program := rfl
@[simp] theorem Run.store_resp (r : Run) (s : State) : (r.store s).resp = s.resp := rfl
@[simp] theorem Run.store_eager (r : Run) (s : State) : (r.store s).eager = s.eager := rfl
@[simp] theorem Run.store_draws (r : Run) (s : State) : (r.store s).draws = s.draws := rfl

/-! ### `waitOn` -/

@[simp] theorem waitOn_status (j : Job) (out : List BusRead) (s : State) : (waitOn j out s).status = s.status := rfl
@[simp] theorem waitOn_irqen (j : Job) (out : List BusRead) (s : State) : (waitOn j out s).irqen = s.irqen := rfl
@[simp] theorem waitOn_acc (j : Job) (out : List BusRead) (s : State) : (waitOn j out s).acc = s.acc := rfl
@[simp] theorem waitOn_data (j : Job) (out : List BusRead) (s : State) : (waitOn j out s).data = s.data := rfl
@[simp] theorem waitOn_addr (j : Job) (out : List BusRead) (s : State) : (waitOn j out s).addr = s.addr := rfl
@[simp] theorem waitOn_len (j : Job) (out : List BusRead) (s : State) : (waitOn j out s).len = s.len := rfl
@[simp] theorem waitOn_crc0 (j : Job) (out : List BusRead) (s : State) : (waitOn j out s).crc0 = s.crc0 := rfl
@[simp] theorem waitOn_crc1 (j : Job) (out : List BusRead) (s : State) : (waitOn j out s).crc1 = s.crc1 := rfl
@[simp] theorem waitOn_crc2 (j : Job) (out : List BusRead) (s : State) : (waitOn j out s).crc2 = s.crc2 := rfl
@[simp] theorem waitOn_erraddr (j : Job) (out : List BusRead) (s : State) : (waitOn j out s).erraddr = s.erraddr := rfl
@[simp] theorem waitOn_job (j : Job) (out : List BusRead) (s : State) : (waitOn j out s).job = some { j with todo := [], out := out } := rfl
@[simp] theorem waitOn_mem (j : Job) (out : List BusRead) (s : State) : (waitOn j out s).mem = s.mem := rfl
@[simp] theorem waitOn_stale (j : Job) (out : List BusRead) (s : State) : (waitOn j out s).stale = s.stale := rfl
@[simp] theorem waitOn_plat (j : Job) (out : List BusRead) (s : State) : (waitOn j out s).plat = s.plat := rfl
@[simp] theorem waitOn_events (j : Job) (out : List BusRead) (s : State) : (waitOn j out s).events = s.events := rfl
@[simp] theorem waitOn_program (j : Job) (out : List BusRead) (s : State) : (waitOn j out s).program = s.program := rfl
@[simp] theorem waitOn_resp (j : Job) (out : List BusRead) (s : State) : (waitOn j out s).resp = s.resp := rfl
@[simp] theorem waitOn_eager (j : Job) (out : List BusRead) (s : State) : (waitOn j out s).eager = s.eager := rfl
@[simp] theorem waitOn_draws (j : Job) (out : List BusRead) (s : State) : (waitOn j out s).draws = s.draws := rfl

/-! ### `startJob` -/

@[simp] theorem startJob_status (cmd : Instr) (body : Body) (s : State) : (startJob cmd body s).status = { s.status with busy := true } := rfl
@[simp] theorem startJob_irqen (cmd : Instr) (body : Body) (s : State) : (startJob cmd body s).irqen = s.irqen := rfl
@[simp] theorem startJob_acc (cmd : Instr) (body : Body) (s : State) : (startJob cmd body s).acc = s.acc := rfl
@[simp] theorem startJob_data (cmd : Instr) (body : Body) (s : State) : (startJob cmd body s).data = s.data := rfl
@[simp] theorem startJob_addr (cmd : Instr) (body : Body) (s : State) : (startJob cmd body s).addr = s.addr := rfl
@[simp] theorem startJob_len (cmd : Instr) (body : Body) (s : State) : (startJob cmd body s).len = s.len := rfl
@[simp] theorem startJob_crc0 (cmd : Instr) (body : Body) (s : State) : (startJob cmd body s).crc0 = s.crc0 := rfl
@[simp] theorem startJob_crc1 (cmd : Instr) (body : Body) (s : State) : (startJob cmd body s).crc1 = s.crc1 := rfl
@[simp] theorem startJob_crc2 (cmd : Instr) (body : Body) (s : State) : (startJob cmd body s).crc2 = s.crc2 := rfl
@[simp] theorem startJob_erraddr (cmd : Instr) (body : Body) (s : State) : (startJob cmd body s).erraddr = s.erraddr := rfl
@[simp] theorem startJob_mem (cmd : Instr) (body : Body) (s : State) : (startJob cmd body s).mem = s.mem := rfl
@[simp] theorem startJob_stale (cmd : Instr) (body : Body) (s : State) : (startJob cmd body s).stale = s.stale := rfl
@[simp] theorem startJob_plat (cmd : Instr) (body : Body) (s : State) : (startJob cmd body s).plat = s.plat := rfl
@[simp] theorem startJob_events (cmd : Instr) (body : Body) (s : State) : (startJob cmd body s).events = s.events := rfl
@[simp] theorem startJob_program (cmd : Instr) (body : Body) (s : State) : (startJob cmd body s).program = s.program := rfl
@[simp] theorem startJob_resp (cmd : Instr) (body : Body) (s : State) : (startJob cmd body s).resp = s.resp := rfl
@[simp] theorem startJob_eager (cmd : Instr) (body : Body) (s : State) : (startJob cmd body s).eager = s.eager := rfl
@[simp] theorem startJob_draws (cmd : Instr) (body : Body) (s : State) : (startJob cmd body s).draws = s.draws := rfl

end Sys2Proof.Machine
end

