-- ==== Sys2Proof/Laws/Job.lean ====
section
/-! SUPPORT. What a command write and the end of a job can do, said once: every command is `onCommand` of its check and its
body; what `onCommand` answers; what `settle` answers. -/

namespace Sys2Proof.Machine

/-- Every command is one command write of its check and its body. -/
theorem exec_eq_onCommand (i : Instr) (s : State) :
    exec i s = .next (onCommand i (commandCheck i) (jobBody i) s) := by
  cases i <;> rfl

/-- A check reads the operand registers only. -/
theorem commandCheck_congr (i : Instr) {s t : State} (ha : t.addr = s.addr) (hl : t.len = s.len) :
    commandCheck i t = commandCheck i s := by
  cases i <;>
    simp [commandCheck, noCheck, checkBlockSize, checkBuffer, checkStripe, checkEpilogue, checkAligned8, ha, hl]

/-- A command's reads are a function of its operand registers. -/
theorem readPlan_congr (body : Body) {s t : State} (h : Run.load t = Run.load s) : readPlan body t = readPlan body s := by
  simp only [readPlan, h]

/-- A blocked command write only sets `DROP`. -/
theorem onCommand_blocked {cmd : Instr} {check : State → Option FaultCode} {body : Body} {s : State}
    (h : s.blocked = true) : onCommand cmd check body s = s.dropWrite := by
  simp [onCommand, h]

/-- An accepted command write whose check fails raises its fault. -/
theorem onCommand_fault {cmd : Instr} {check : State → Option FaultCode} {body : Body} {s : State} {c : FaultCode}
    (h : s.blocked = false) (hc : check s = some c) : onCommand cmd check body s = s.accept.raiseFault c 0 := by
  simp [onCommand, h, hc]

/-- An accepted command write that passes its check, left running. -/
theorem onCommand_deferred {cmd : Instr} {check : State → Option FaultCode} {body : Body} {s : State}
    (h : s.blocked = false) (hc : check s = none) (he : (s.eager && !readsMemory cmd) = false) :
    onCommand cmd check body s = startJob cmd body s.accept := by
  simp [onCommand, h, hc, he]

/-- The job a command write starts. -/
def startedJob (cmd : Instr) (body : Body) (s : State) : Job where
  cmd := cmd
  reads := readPlan body s
  todo := readPlan body s
  out := []
  failed := none
  raced := (readPlan body s).any (BusRead.unstable s.plat s.stale)

@[simp] theorem startJob_job (cmd : Instr) (body : Body) (s : State) :
    (startJob cmd body s).job = some (startedJob cmd body s) := rfl

/-- An accepted command write that passes its check, of a command that reads no memory, completed at once. -/
theorem onCommand_eager {cmd : Instr} {check : State → Option FaultCode} {body : Body} {s : State}
    (h : s.blocked = false) (hc : check s = none) (he : (s.eager && !readsMemory cmd) = true) :
    onCommand cmd check body s =
      settle body (startedJob cmd body s.accept) (startJob cmd body s.accept) := by
  simp [onCommand, h, hc, he, settleJob]

/-- What running a job on can answer: it waits for a read that holds a silent byte, it ends in a BUS fault at the failing
byte it has seen or at one of the reads left, or it ends with its results. -/
theorem settle_cases (body : Body) (j : Job) (s : State) :
    (∃ out n, settle body j s = waitOn j out (s.spend n) ∧ (∀ r ∈ j.out, r ∈ out) ∧ (∀ r ∈ out, r ∈ j.out ++ j.todo)
        ∧ ∃ r ∈ out, r.hasSilent s.plat = true)
      ∨ (∃ a n, settle body j s = busFault j.cmd a (s.spend n)
        ∧ (j.failed = some a ∨ j.failed = none ∧ a ∈ failingBytes s.plat (j.out ++ j.todo)))
      ∨ (settle body j s = endJob body j s ∧ j.failed = none ∧ failingBytes s.plat (j.out ++ j.todo) = []
        ∧ ∀ r ∈ j.out ++ j.todo, r.hasSilent s.plat = false) := by
  have never : j.out.any (BusRead.neverAnswers s.plat) = true → ∃ r ∈ j.out, r.hasSilent s.plat = true := by
    intro h
    obtain ⟨r, hr, hn⟩ := List.any_eq_true.1 h
    exact ⟨r, hr, (Bool.and_eq_true _ _ ▸ hn).1⟩
  have pick : ∀ (t : State) (l : List Nat), l ≠ [] → t.pickFailing l ∈ l := by
    intro t l hl
    match l, hl with
    | [a], _ => simp [State.pickFailing]
    | a :: b :: l, _ =>
      have hlt : t.drawn.toNat % (a :: b :: l).length < (a :: b :: l).length := Nat.mod_lt _ (by simp)
      simp only [State.pickFailing, List.getD_eq_getElem?_getD, List.getElem?_eq_getElem hlt, Option.getD_some]
      exact List.getElem_mem hlt
  unfold settle
  cases hf : j.failed with
  | some a =>
    simp only
    split
    · next h =>
      obtain ⟨r, hr, hs⟩ := never h
      exact .inl ⟨j.out, 0, rfl, fun _ h => h, fun _ h => List.mem_append_left _ h, r, hr, hs⟩
    · split
      · next _ h =>
        obtain ⟨r, hr, hs⟩ := List.any_eq_true.1 (Bool.and_eq_true _ _ ▸ h).1
        exact .inl ⟨j.out, 1, rfl, fun _ h => h, fun _ h => List.mem_append_left _ h, r, hr, hs⟩
      · exact .inr (.inl ⟨a, 1, rfl, .inl rfl⟩)
  | none =>
    simp only
    split
    · next h =>
      obtain ⟨r, hr, hs⟩ := never h
      exact .inl ⟨j.out ++ j.todo, 0, rfl, fun _ h => List.mem_append_left _ h, fun _ h => h, r,
        List.mem_append_left _ hr, hs⟩
    · split
      · next _ hb =>
        split
        · next h =>
          obtain ⟨r, hr, hs⟩ := List.any_eq_true.1 h
          exact .inl ⟨j.out ++ j.todo, 0, rfl, fun _ h => List.mem_append_left _ h, fun _ h => h, r, hr, hs⟩
        · next h =>
          refine .inr (.inr ⟨rfl, trivial, List.isEmpty_iff.1 hb, fun r hr => ?_⟩)
          simpa using (List.any_eq_false.1 (Bool.not_eq_true _ ▸ h)) r hr
      · next _ hb =>
        split
        · next h =>
          obtain ⟨r, hr, hs⟩ := List.any_eq_true.1 (Bool.and_eq_true _ _ ▸ h).1
          exact .inl ⟨j.out ++ j.todo, 1, rfl, fun _ h => List.mem_append_left _ h, fun _ h => h, r, hr, hs⟩
        · refine .inr (.inl ⟨_, 2, rfl, .inr ⟨trivial, pick _ _ fun h => ?_⟩⟩)
          exact hb (List.isEmpty_iff.2 h)

/-- A job with no failing, silent or unstable byte left ends with its command's results. -/
theorem settle_clean {body : Body} {j : Job} {s : State} (hf : j.failed = none)
    (hb : ∀ r ∈ j.out ++ j.todo, r.failing s.plat = []) (hs : ∀ r ∈ j.out ++ j.todo, r.hasSilent s.plat = false) :
    settle body j s = endJob body j s := by
  have hbad : failingBytes s.plat (j.out ++ j.todo) = [] := List.flatMap_eq_nil_iff.2 hb
  have hany : (j.out ++ j.todo).any (BusRead.hasSilent s.plat) = false :=
    List.any_eq_false.2 fun r hr => by simp [hs r hr]
  have hnever : j.out.any (BusRead.neverAnswers s.plat) = false :=
    List.any_eq_false.2 fun r hr => by simp [BusRead.neverAnswers, hs r (List.mem_append_left _ hr)]
  simp [settle, hf, hbad, hany, hnever]

end Sys2Proof.Machine
end

