-- ==== Sys2Proof/Laws/Invariant.lean ====
section
/-! SUPPORT. The invariant carried over to a state that agrees on what it speaks of. -/

namespace Sys2Proof.Machine

/-- Whether a job fits depends on the operand registers and the platform alone. -/
theorem Job.fits_congr {j : Job} {s t : State} (hrun : Run.load t = Run.load s) (hplat : t.plat = s.plat)
    (haddr : t.addr = s.addr) (hlen : t.len = s.len) (h : j.fits s) : j.fits t := by
  obtain ⟨hc, hr, hm, hf⟩ := h
  exact ⟨by rw [commandCheck_congr j.cmd haddr hlen, hc], by rw [readPlan_congr _ hrun, hr], hm, by rw [hplat]; exact hf⟩

/-- The invariant of a state that differs in none of the fields it speaks of. -/
theorem State.inv_congr {s t : State} (h : s.Inv) (hstatus : t.status = s.status) (hrun : Run.load t = Run.load s)
    (haddr : t.addr = s.addr) (hlen : t.len = s.len) (hjob : t.job = s.job) (hmem : t.mem = s.mem)
    (hstale : t.stale = s.stale) (hplat : t.plat = s.plat) : t.Inv := by
  obtain ⟨a, b, c, d, e, f⟩ := h
  exact ⟨by rw [hmem, a], by rw [hstale]; exact b, by rw [hstatus, c], by rw [hjob, hstatus, d],
    fun j hj => Job.fits_congr hrun hplat haddr hlen (e j (by rw [← hjob, hj])), by rw [hplat, f]⟩

/-- A dropped write keeps the invariant. -/
theorem State.inv_dropWrite {s : State} (h : s.Inv) : s.dropWrite.Inv := by
  obtain ⟨a, b, c, d, e, f⟩ := h
  exact ⟨a, b, c, d, fun j hj => Job.fits_congr (s := s) rfl rfl rfl rfl (e j hj), f⟩

end Sys2Proof.Machine
end

