-- ==== Sys2Proof/Laws/Memory.lean ====
section
/-! SUPPORT. The laws of bus memory and of the list of unpublished bytes: every operation keeps the canonical form, and a
read after a write. -/

namespace Sys2Proof.Machine

/-! ### The canonical form -/

theorem Memory.wfFrom_nil (lo : Nat) : Memory.wfFrom lo [] = true := rfl

theorem Memory.wfFrom_cons {lo k : Nat} {b : Byte} {m : Memory} :
    Memory.wfFrom lo ((k, b) :: m) = true ↔
      lo ≤ k ∧ k < 2 ^ 64 ∧ b ≠ Memory.unlisted ∧ Memory.wfFrom (k + 1) m = true := by
  simp only [Memory.wfFrom, Bool.and_eq_true, decide_eq_true_eq, and_assoc]

theorem Memory.wfFrom_mono {lo lo' : Nat} {m : Memory} (h : lo' ≤ lo) (hm : Memory.wfFrom lo m = true) :
    Memory.wfFrom lo' m = true := by
  cases m with
  | nil => rfl
  | cons c m =>
    obtain ⟨k, b⟩ := c
    rw [Memory.wfFrom_cons] at hm ⊢
    exact ⟨by omega, hm.2⟩

theorem Memory.wfFrom_write {m : Memory} {a : Nat} {v : Byte} (ha : a < 2 ^ 64) :
    ∀ {lo : Nat}, lo ≤ a → Memory.wfFrom lo m = true → Memory.wfFrom lo (Memory.write m a v) = true := by
  induction m with
  | nil =>
    intro lo hlo _
    simp only [Memory.write]
    split
    · rfl
    · next hv => exact Memory.wfFrom_cons.2 ⟨hlo, ha, hv, rfl⟩
  | cons c m ih =>
    obtain ⟨k, b⟩ := c
    intro lo hlo hm
    have h := Memory.wfFrom_cons.1 hm
    simp only [Memory.write]
    split
    · next hak =>
      split
      · exact hm
      · next hv =>
        exact Memory.wfFrom_cons.2 ⟨hlo, ha, hv, Memory.wfFrom_cons.2 ⟨hak, h.2⟩⟩
    · split
      · next hak =>
        subst hak
        split
        · exact Memory.wfFrom_mono (by omega) h.2.2.2
        · next hv => exact Memory.wfFrom_cons.2 ⟨hlo, ha, hv, h.2.2.2⟩
      · exact Memory.wfFrom_cons.2 ⟨h.1, h.2.1, h.2.2.1, ih (by omega) h.2.2.2⟩

/-- Writing a byte of the bus address space keeps the canonical form. -/
theorem Memory.wf_write {m : Memory} {a : Nat} {v : Byte} (ha : a < 2 ^ 64) (hm : Memory.wf m = true) :
    Memory.wf (Memory.write m a v) = true :=
  Memory.wfFrom_write ha (Nat.zero_le a) hm

/-- The reset state's memory has the canonical form. -/
theorem State.reset_mem_wf : Memory.wf State.reset.mem = true := rfl

/-! ### Read after write -/

theorem Memory.read_below {m : Memory} {a : Nat} :
    ∀ {lo : Nat}, a < lo → Memory.wfFrom lo m = true → Memory.read m a = Memory.unlisted := by
  induction m with
  | nil => intros; rfl
  | cons c m ih =>
    obtain ⟨k, b⟩ := c
    intro lo hlo hm
    have h := Memory.wfFrom_cons.1 hm
    simp only [Memory.read]
    rw [if_neg (by omega)]
    exact ih (lo := k + 1) (by omega) h.2.2.2

theorem Memory.read_write_from {m : Memory} {a x : Nat} {v : Byte} :
    ∀ {lo : Nat}, Memory.wfFrom lo m = true →
      Memory.read (Memory.write m a v) x = if x = a then v else Memory.read m x := by
  induction m with
  | nil =>
    intro lo _
    by_cases hv : v = Memory.unlisted <;> by_cases hx : a = x <;>
      simp [Memory.write, Memory.read, hv, hx, eq_comm (a := x)]
  | cons c m ih =>
    obtain ⟨k, b⟩ := c
    intro lo hm
    have h := Memory.wfFrom_cons.1 hm
    simp only [Memory.write]
    split
    · next hak =>
      split
      · next hv =>
        by_cases hx : x = a
        · subst hx
          rw [if_pos rfl, hv]
          exact Memory.read_below (lo := k) hak (Memory.wfFrom_cons.2 ⟨le_refl k, h.2⟩)
        · rw [if_neg hx]
      · by_cases hx : x = a
        · subst hx; simp [Memory.read]
        · rw [if_neg hx]
          conv_lhs => rw [Memory.read]
          rw [if_neg (by omega)]
    · split
      · next _ hak =>
        subst hak
        split
        · next hv =>
          by_cases hx : x = a
          · subst hx
            rw [if_pos rfl, hv]
            exact Memory.read_below (Nat.lt_succ_self x) h.2.2.2
          · rw [if_neg hx, Memory.read, if_neg (by omega)]
        · by_cases hx : x = a
          · subst hx; simp [Memory.read]
          · rw [if_neg hx, Memory.read, if_neg (by omega), Memory.read, if_neg (by omega)]
      · next hlt hne =>
        simp only [Memory.read]
        by_cases hxk : k = x
        · rw [if_pos hxk, if_neg (by omega), if_pos hxk]
        · rw [if_neg hxk, if_neg hxk]
          exact ih h.2.2.2

/-- In a canonical memory a byte written reads as written, and every other byte as before. -/
theorem Memory.read_write {m : Memory} (hm : Memory.wf m = true) (a x : Nat) (v : Byte) :
    Memory.read (Memory.write m a v) x = if x = a then v else Memory.read m x :=
  Memory.read_write_from hm

/-! ### The rising list of unpublished bytes -/

theorem mem_insertAddr {l : List Nat} {a x : Nat} : x ∈ insertAddr l a ↔ x = a ∨ x ∈ l := by
  induction l with
  | nil => simp [insertAddr]
  | cons k l ih =>
    simp only [insertAddr]
    split
    · simp
    · split
      · next h => subst h; simp
      · simp [ih]; tauto

/-- Adding an address keeps the list rising. -/
theorem risingAddrs_insertAddr {l : List Nat} {a : Nat} (h : risingAddrs l) : risingAddrs (insertAddr l a) := by
  induction l with
  | nil => simp [insertAddr, risingAddrs]
  | cons k l ih =>
    have hk := List.pairwise_cons.1 h
    simp only [insertAddr]
    split
    · next hak =>
      refine List.pairwise_cons.2 ⟨fun x hx => ?_, h⟩
      rcases List.mem_cons.1 hx with rfl | hx
      · exact hak
      · exact lt_trans hak (hk.1 x hx)
    · split
      · exact h
      · refine List.pairwise_cons.2 ⟨fun x hx => ?_, ih hk.2⟩
        rcases mem_insertAddr.1 hx with rfl | hx
        · omega
        · exact hk.1 x hx

end Sys2Proof.Machine
end

