-- ==== Sys2Proof/Laws/PerInstr.lean ====
section
/-! SUPPORT. Facts about every command as syntax: the fields of its command word (rule R111). -/

namespace Sys2Proof.Laws.Format

/-- The command word of a well-formed command has the command's opcode in `OP`, its immediate in `N`, and `RSV = 0`. -/
def Statement (i : Instr) : Prop :=
  i.wellFormed = true → opField (encode i) = i.opcode ∧ nField (encode i) = i.nImmediate ∧ rsvField (encode i) = 0

/-- The three fields of a word put together from them. -/
theorem fields_of_append (n o : Byte) :
    opField ((0#16 : BitVec 16) ++ n ++ o) = o ∧ nField ((0#16 : BitVec 16) ++ n ++ o) = n
      ∧ rsvField ((0#16 : BitVec 16) ++ n ++ o) = 0 := by
  refine ⟨?_, ?_, ?_⟩ <;> apply BitVec.eq_of_getLsbD_eq <;> intro i hi <;>
    simp only [opField, nField, rsvField, BitVec.getLsbD_extractLsb', BitVec.getLsbD_append, hi, decide_true,
      Bool.true_and]
  · simp [hi]
  · have h1 : ¬ (8 + i < 8) := by omega
    have h2 : 8 + i - 8 = i := by omega
    simp [h2, hi]
  · have h1 : ¬ (16 + i < 8) := by omega
    have h2 : ¬ (16 + i - 8 < 8) := by omega
    simp [h1, h2]

theorem nop : Statement .nop := fun _ => fields_of_append _ _

theorem step1 : Statement .step1 := fun _ => fields_of_append _ _

theorem step2 : Statement .step2 := fun _ => fields_of_append _ _

theorem step4 : Statement .step4 := fun _ => fields_of_append _ _

theorem step8 : Statement .step8 := fun _ => fields_of_append _ _

theorem prologue : Statement .prologue := fun _ => fields_of_append _ _

theorem stripe : Statement .stripe := fun _ => fields_of_append _ _

theorem combine (n : Nat) : Statement (.combine n) := fun _ => fields_of_append _ _

theorem epilogue : Statement .epilogue := fun _ => fields_of_append _ _

theorem compute : Statement .compute := fun _ => fields_of_append _ _

end Sys2Proof.Laws.Format
end

