-- ==== Sys2Proof/Laws/Run.lean ====
section
/-! SUPPORT. The fields of a command's working registers after each of their named updates. -/

namespace Sys2Proof.Machine

/-! ### `Run.load` -/

@[simp] theorem Run.load_acc (s : State) : (Run.load s).acc = s.acc := rfl
@[simp] theorem Run.load_data (s : State) : (Run.load s).data = s.data := rfl
@[simp] theorem Run.load_addr (s : State) : (Run.load s).addr = s.addr.toNat := rfl
@[simp] theorem Run.load_len (s : State) : (Run.load s).len = s.len.toNat := rfl
@[simp] theorem Run.load_crc0 (s : State) : (Run.load s).crc0 = s.crc0 := rfl
@[simp] theorem Run.load_crc1 (s : State) : (Run.load s).crc1 = s.crc1 := rfl
@[simp] theorem Run.load_crc2 (s : State) : (Run.load s).crc2 = s.crc2 := rfl
@[simp] theorem Run.load_engaged (s : State) : (Run.load s).engaged = false := rfl
@[simp] theorem Run.load_reads (s : State) : (Run.load s).reads = [] := rfl

/-! ### `Run.log` -/

@[simp] theorem Run.log_acc (r : Run) (a n : Nat) : (r.log a n).acc = r.acc := rfl
@[simp] theorem Run.log_data (r : Run) (a n : Nat) : (r.log a n).data = r.data := rfl
@[simp] theorem Run.log_addr (r : Run) (a n : Nat) : (r.log a n).addr = r.addr := rfl
@[simp] theorem Run.log_len (r : Run) (a n : Nat) : (r.log a n).len = r.len := rfl
@[simp] theorem Run.log_crc0 (r : Run) (a n : Nat) : (r.log a n).crc0 = r.crc0 := rfl
@[simp] theorem Run.log_crc1 (r : Run) (a n : Nat) : (r.log a n).crc1 = r.crc1 := rfl
@[simp] theorem Run.log_crc2 (r : Run) (a n : Nat) : (r.log a n).crc2 = r.crc2 := rfl
@[simp] theorem Run.log_engaged (r : Run) (a n : Nat) : (r.log a n).engaged = r.engaged := rfl
@[simp] theorem Run.log_reads (r : Run) (a n : Nat) : (r.log a n).reads = r.reads ++ [⟨a, n⟩] := rfl

/-! ### `Run.consume` -/

@[simp] theorem Run.consume_acc (bytes : Bytes) (n : Nat) (r : Run) : (r.consume bytes n).acc = stepBytes r.acc (readLE bytes r.addr n) n := rfl
@[simp] theorem Run.consume_data (bytes : Bytes) (n : Nat) (r : Run) : (r.consume bytes n).data = r.data := rfl
@[simp] theorem Run.consume_addr (bytes : Bytes) (n : Nat) (r : Run) : (r.consume bytes n).addr = r.addr + n := rfl
@[simp] theorem Run.consume_len (bytes : Bytes) (n : Nat) (r : Run) : (r.consume bytes n).len = r.len - n := rfl
@[simp] theorem Run.consume_crc0 (bytes : Bytes) (n : Nat) (r : Run) : (r.consume bytes n).crc0 = r.crc0 := rfl
@[simp] theorem Run.consume_crc1 (bytes : Bytes) (n : Nat) (r : Run) : (r.consume bytes n).crc1 = r.crc1 := rfl
@[simp] theorem Run.consume_crc2 (bytes : Bytes) (n : Nat) (r : Run) : (r.consume bytes n).crc2 = r.crc2 := rfl
@[simp] theorem Run.consume_engaged (bytes : Bytes) (n : Nat) (r : Run) : (r.consume bytes n).engaged = r.engaged := rfl
@[simp] theorem Run.consume_reads (bytes : Bytes) (n : Nat) (r : Run) : (r.consume bytes n).reads = r.reads ++ [⟨r.addr, n⟩] := rfl

/-! ### `Run.merge` -/

@[simp] theorem Run.merge_acc (m : Word32) (r : Run) : (r.merge m).acc = r.acc := rfl
@[simp] theorem Run.merge_data (m : Word32) (r : Run) : (r.merge m).data = r.data := rfl
@[simp] theorem Run.merge_addr (m : Word32) (r : Run) : (r.merge m).addr = r.addr := rfl
@[simp] theorem Run.merge_len (m : Word32) (r : Run) : (r.merge m).len = r.len := rfl
@[simp] theorem Run.merge_crc0 (m : Word32) (r : Run) : (r.merge m).crc0 = m := rfl
@[simp] theorem Run.merge_crc1 (m : Word32) (r : Run) : (r.merge m).crc1 = 0 := rfl
@[simp] theorem Run.merge_crc2 (m : Word32) (r : Run) : (r.merge m).crc2 = 0 := rfl
@[simp] theorem Run.merge_engaged (m : Word32) (r : Run) : (r.merge m).engaged = r.engaged := rfl
@[simp] theorem Run.merge_reads (m : Word32) (r : Run) : (r.merge m).reads = r.reads := rfl

/-! ### `stripeStart` -/

@[simp] theorem stripeStart_acc (r : Run) : (stripeStart r).acc = r.acc := rfl
@[simp] theorem stripeStart_data (r : Run) : (stripeStart r).data = r.data := rfl
@[simp] theorem stripeStart_addr (r : Run) : (stripeStart r).addr = r.addr := rfl
@[simp] theorem stripeStart_len (r : Run) : (stripeStart r).len = r.len := rfl
@[simp] theorem stripeStart_crc0 (r : Run) : (stripeStart r).crc0 = r.acc := rfl
@[simp] theorem stripeStart_crc1 (r : Run) : (stripeStart r).crc1 = 0 := rfl
@[simp] theorem stripeStart_crc2 (r : Run) : (stripeStart r).crc2 = 0 := rfl
@[simp] theorem stripeStart_engaged (r : Run) : (stripeStart r).engaged = true := rfl
@[simp] theorem stripeStart_reads (r : Run) : (stripeStart r).reads = r.reads := rfl

end Sys2Proof.Machine
end

