-- ==== Sys2Proof/Laws/Stepper.lean ====
section
/-! SUPPORT. The step function and the sequential CRC: stepping the bytes a read assembles is the sequential CRC of those
bytes, so that every read of a command extends `Seq` by its bytes. -/

namespace Sys2Proof.Machine

@[simp] theorem seq_nil (c : Word32) : seq c [] = c := rfl

@[simp] theorem seq_cons (c : Word32) (b : Byte) (l : List Byte) : seq c (b :: l) = seq (crcByte c b) l := rfl

/-- `Seq(Seq(c, X), Y) = Seq(c, X ‖ Y)`, the fact rule R256 rests on. -/
theorem seq_append (c : Word32) (x y : List Byte) : seq c (x ++ y) = seq (seq c x) y := List.foldl_append

@[simp] theorem bytesFrom_zero (bytes : Bytes) (a : Nat) : bytesFrom bytes a 0 = [] := rfl

theorem bytesFrom_succ (bytes : Bytes) (a n : Nat) :
    bytesFrom bytes a (n + 1) = bytes a :: bytesFrom bytes (a + 1) n := by
  simp only [bytesFrom, List.range_succ_eq_map, List.map_cons, List.map_map, Nat.add_zero]
  congr 1
  refine List.map_congr_left fun k _ => ?_
  simp only [Function.comp_apply, Nat.succ_eq_add_one]
  congr 1
  omega

/-- A run of bytes in two parts. -/
theorem bytesFrom_add (bytes : Bytes) (a m n : Nat) :
    bytesFrom bytes a (m + n) = bytesFrom bytes a m ++ bytesFrom bytes (a + m) n := by
  simp only [bytesFrom, List.range_add, List.map_append, List.map_map]
  congr 1
  refine List.map_congr_left fun k _ => ?_
  simp only [Function.comp_apply, Nat.add_assoc]

@[simp] theorem stepBytes_zero (c : Word32) (w : Word64) : stepBytes c w 0 = c := rfl

/-- One byte of `StepBytes`, the lowest first. -/
theorem stepBytes_succ (c : Word32) (w : Word64) (n : Nat) :
    stepBytes c w (n + 1) = stepBytes (crcByte c (w.extractLsb' 0 8)) (w >>> 8) n := by
  simp only [stepBytes, List.range_succ_eq_map, List.foldl_cons, List.foldl_map, Nat.mul_zero]
  congr 1
  funext c k
  congr 1
  ext i hi
  simp only [BitVec.getElem_extractLsb', BitVec.getLsbD_ushiftRight, Nat.succ_eq_add_one]
  congr 1
  omega

/-- The lowest byte of a read is the byte at its address (rule R87). -/
theorem readLE_low (bytes : Bytes) (a n : Nat) : (readLE bytes a (n + 1)).extractLsb' 0 8 = bytes a := by
  ext i hi
  simp only [readLE, BitVec.getElem_extractLsb', BitVec.getLsbD_or, BitVec.getLsbD_setWidth, BitVec.getLsbD_shiftLeft,
    Nat.zero_add]
  have h1 : i < 64 := by omega
  have h2 : (decide (i < 8)) = true := by simp [hi]
  simp [h1, h2, BitVec.getLsbD_eq_getElem hi]

/-- Bits of a read past its width are zero. -/
theorem readLE_high (bytes : Bytes) : ∀ (n a i : Nat), 8 * n ≤ i → (readLE bytes a n).getLsbD i = false := by
  intro n
  induction n with
  | zero => intro a i _; simp [readLE]
  | succ n ih =>
    intro a i hi
    simp only [readLE, BitVec.getLsbD_or, BitVec.getLsbD_setWidth, BitVec.getLsbD_shiftLeft, Bool.or_eq_false_iff]
    refine ⟨?_, ?_⟩
    · simp [BitVec.getLsbD_of_ge (bytes a) i (by omega)]
    · simp [ih (a + 1) (i - 8) (by omega)]

/-- The bytes of a read above its lowest are the read one byte further (rule R87). -/
theorem readLE_shift (bytes : Bytes) (a n : Nat) (hn : n < 8) :
    readLE bytes a (n + 1) >>> 8 = readLE bytes (a + 1) n := by
  apply BitVec.eq_of_getLsbD_eq
  intro i hi
  simp only [BitVec.getLsbD_ushiftRight, readLE, BitVec.getLsbD_or, BitVec.getLsbD_setWidth, BitVec.getLsbD_shiftLeft]
  rw [BitVec.getLsbD_of_ge (bytes a) (8 + i) (by omega)]
  by_cases h : 8 + i < 64
  · simp [h]
  · have := readLE_high bytes n (a + 1) i (by omega)
    simp [h, this]

/-- Stepping the bytes that a read assembles is the sequential CRC of those bytes, for every width up to 8. -/
theorem stepBytes_readLE (bytes : Bytes) :
    ∀ (n a : Nat) (c : Word32), n ≤ 8 → stepBytes c (readLE bytes a n) n = seq c (bytesFrom bytes a n) := by
  intro n
  induction n with
  | zero => intros; rfl
  | succ n ih =>
    intro a c hn
    rw [stepBytes_succ, readLE_low, readLE_shift bytes a n (by omega), ih (a + 1) _ (by omega), bytesFrom_succ, seq_cons]

/-- Consuming `n` bytes extends the accumulator's sequence by them. -/
theorem Run.consume_acc_seq (bytes : Bytes) (n : Nat) (r : Run) (hn : n ≤ 8) :
    (r.consume bytes n).acc = seq r.acc (bytesFrom bytes r.addr n) :=
  stepBytes_readLE bytes n r.addr r.acc hn

end Sys2Proof.Machine
end

