-- ==== Sys2Proof/Laws/Window.lean ====
section
/-! SUPPORT. The register window: a host access at `ENGINE_BASE + o` reaches offset `o`, and what it then does. -/

namespace Sys2Proof.Machine

/-- The window's offset of a window address (rule R80). -/
theorem windowOffset_windowAddr (s : State) {o : Nat} (h : o < 4096) :
    windowOffset s.plat.base (s.windowAddr o) = some o := by
  have hsub : s.plat.base + BitVec.ofNat 64 o - s.plat.base = BitVec.ofNat 64 o := by
    rw [BitVec.add_comm, BitVec.add_sub_cancel]
  have ho : (BitVec.ofNat 64 o).toNat = o := by
    rw [BitVec.toNat_ofNat]
    exact Nat.mod_eq_of_lt (by omega)
  simp only [windowOffset, State.windowAddr, hsub, ho, h, if_true]

/-- A host read the window takes. -/
theorem hostRead_window (s : State) {o width : Nat} (h : o < 4096) (ok : accessOk o width = true) :
    hostRead (s.windowAddr o) width s = windowRead o width s := by
  simp [hostRead, windowOffset_windowAddr s h, ok]

/-- A host write the window takes, command writes apart. -/
theorem hostWrite_window (s : State) {o width : Nat} (v : Word64) (h : o < 4096) (ok : accessOk o width = true)
    (hc : o ≠ 8) :
    hostWrite (s.windowAddr o) width v s = .next (windowWrite o width v { s with resp := .done }) := by
  simp [hostWrite, windowOffset_windowAddr s h, ok, hc]

/-- A command write (rule R84). -/
theorem hostWrite_command (s : State) {width : Nat} (v : Word64) (h : width = 4 ∨ width = 8) :
    hostWrite (s.windowAddr 8) width v s = commandWrite (v.setWidth 32) { s with resp := .done } := by
  have ok : accessOk 8 width = true := by rcases h with rfl | rfl <;> rfl
  simp [hostWrite, windowOffset_windowAddr s (o := 8) (by omega), ok]

end Sys2Proof.Machine
end

