-- ==== Sys2Proof/Tests/Slice0.lean ====
section
/-! SUPPORT. The model's own tests: expected values are those of spec/30_encoding.md R118 and spec/95_test_vectors.md. The
`witness_` theorems show states and operands that meet the hypotheses of each statement. -/

namespace Sys2Proof.Tests

open Sys2Proof.Machine

/-! ### Helpers -/

/-- The state of an outcome. -/
def after : Result → State
  | .next t => t
  | .fault f => nomatch f
  | .refused _ => State.reset

/-- The state after a command and, where its job was left running, after the job has run on. -/
def ran (i : Instr) (s : State) : State := runJob (after (exec i s))

/-- Bytes stored from an address on. -/
def cells (a : Nat) (bs : List Byte) : Memory :=
  (bs.zipIdx.map (fun p => (a + p.2, p.1))).filter (fun c => decide (c.2 ≠ Memory.unlisted))

/-- The bytes of "123456789". -/
def digits : List Byte := [0x31, 0x32, 0x33, 0x34, 0x35, 0x36, 0x37, 0x38, 0x39]

/-- `n` bytes, each the low byte of its address (the address pattern of 95_test_vectors.md). -/
def addressPattern (a n : Nat) : Memory := cells a ((List.range n).map (fun k => BitVec.ofNat 8 (a + k)))

/-- An idle engine with the CRC32-C seed. -/
def seeded : State := { State.reset with acc := 0xFFFFFFFF#32 }

/-- The seeded engine with a word in `DATA`. -/
def withData (c : Word32) (w : Word64) : State := { State.reset with acc := c, data := w }

/-- The seeded engine with a buffer. -/
def withBuffer (a l : Nat) (m : Memory) : State :=
  { seeded with addr := BitVec.ofNat 64 a, len := BitVec.ofNat 64 l, mem := m }

/-- The engine before the COMBINE rows of V5. -/
def withLanes (c0 c1 c2 : Word32) (w : Word64) : State :=
  { State.reset with data := w, crc0 := c0, crc1 := c1, crc2 := c2 }

/-- The engine after a fault. -/
def faulted : State := State.reset.preconditionFault .bsize

/-- A busy engine: COMPUTE over one word, its job left running. -/
def busyState : State := after (exec .compute (withBuffer 0x1000 8 (cells 0x1000 digits)))

/-- The platform where one byte answers otherwise than with data. -/
def oddPlatform (a : Nat) (k : Answer) : Platform := { Platform.reset with regions := [⟨a, 1, k⟩] }

/-- The engine before COMPUTE of a buffer with one odd byte. -/
def withOddByte (k : Answer) : State := { withBuffer 0x5000 16 [] with plat := oddPlatform 0x5009 k }

/-- The stuck engine: COMPUTE has met a byte that never answers. -/
def stuckState : State := ran .compute (withOddByte .silent)

/-! ### Well-formedness: a term refused for each check, and terms accepted -/

theorem test_combine_256_ill_formed : (Instr.combine 256).wellFormed = false := by decide

theorem test_well_formed :
    (Instr.combine 0).wellFormed = true ∧ (Instr.combine 255).wellFormed = true ∧ Instr.nop.wellFormed = true
      ∧ Instr.step1.wellFormed = true ∧ Instr.step2.wellFormed = true ∧ Instr.step4.wellFormed = true
      ∧ Instr.step8.wellFormed = true ∧ Instr.prologue.wellFormed = true ∧ Instr.stripe.wellFormed = true
      ∧ Instr.epilogue.wellFormed = true ∧ Instr.compute.wellFormed = true := by decide

/-! ### Decoding, each word written out as RSV, N, OP from the map of rule R113 -/

/-- A command word from its fields, most significant first (rule R111). -/
def fields (rsv : BitVec 16) (n op : BitVec 8) : Word32 := rsv ++ n ++ op

theorem test_decode_nop : decodeWord (fields 0b0000000000000000 0b00000000 0b00000000) = .ok .nop := by decide
theorem test_decode_step1 : decodeWord (fields 0b0000000000000000 0b00000000 0b00000001) = .ok .step1 := by decide
theorem test_decode_step2 : decodeWord (fields 0b0000000000000000 0b00000000 0b00000010) = .ok .step2 := by decide
theorem test_decode_step4 : decodeWord (fields 0b0000000000000000 0b00000000 0b00000011) = .ok .step4 := by decide
theorem test_decode_step8 : decodeWord (fields 0b0000000000000000 0b00000000 0b00000100) = .ok .step8 := by decide
theorem test_decode_prologue : decodeWord (fields 0b0000000000000000 0b00000000 0b00010000) = .ok .prologue := by decide
theorem test_decode_stripe : decodeWord (fields 0b0000000000000000 0b00000000 0b00010001) = .ok .stripe := by decide
theorem test_decode_combine_1 : decodeWord (fields 0b0000000000000000 0b00000001 0b00010010) = .ok (.combine 1) := by
  decide
theorem test_decode_combine_128 :
    decodeWord (fields 0b0000000000000000 0b10000000 0b00010010) = .ok (.combine 128) := by decide
theorem test_decode_epilogue : decodeWord (fields 0b0000000000000000 0b00000000 0b00010011) = .ok .epilogue := by decide
theorem test_decode_compute : decodeWord (fields 0b0000000000000000 0b00000000 0b00010100) = .ok .compute := by decide

theorem test_decode_refused :
    decodeWord 0x00000005#32 = .error .unknownOpcode ∧ decodeWord 0x00000015#32 = .error .unknownOpcode
      ∧ decodeWord 0x00000114#32 = .error .nonzeroN ∧ decodeWord 0x80000000#32 = .error .nonzeroReserved
      ∧ decodeWord 0x00010012#32 = .error .nonzeroReserved := by decide

theorem test_decode_bytes :
    decodeBytes [0x12, 0x80, 0x00, 0x00, 0xAA] = .ok (.combine 128, [0xAA])
      ∧ decodeBytes [0x12, 0x80, 0x00] = .error .tooShort := by decide

theorem test_encode :
    encode .compute = 0x00000014#32 ∧ encode .step8 = 0x00000004#32 ∧ encode (.combine 128) = 0x00008012#32 := by decide

/-! ### Each command on a vector of the spec -/

/-- V1. -/
theorem test_crc_byte : crcByte 0xFFFFFFFF#32 0x31#8 = 0x6F0A661C#32 ∧ crcByte 0#32 0x80#8 = 0x82F63B78#32 := by decide +kernel

/-- V2. -/
theorem test_step1 : (after (exec .step1 (withData 0xFFFFFFFF#32 0xFFFFFFFFFFFFFF31#64))).acc = 0x6F0A661C#32 := by decide +kernel
theorem test_step2 : (after (exec .step2 (withData 0xFFFFFFFF#32 0x3837363534333231#64))).acc = 0x8CAA3B9F#32 := by decide +kernel
theorem test_step4 : (after (exec .step4 (withData 0xFFFFFFFF#32 0x3837363534333231#64))).acc = 0x09C50B11#32 := by decide +kernel
theorem test_step8 : (after (exec .step8 (withData 0xFFFFFFFF#32 0x3837363534333231#64))).acc = 0x9F787F65#32 := by decide +kernel
theorem test_step4_seed_as_data : (after (exec .step4 (withData 0xDEADBEEF#32 0xDEADBEEF#64))).acc = 0 := by decide +kernel

/-- V10. -/
theorem test_nop : (after (exec .nop State.reset)).status.word = 0x2#64 := by decide +kernel

/-- V3. -/
theorem test_clmul :
    clmul 3 3 = 5#128 ∧ clmul 0xFFFFFFFF 0xFFFFFFFF = 0x5555555555555555#128
      ∧ clmul 0x12345678 0x9ABCDEF0 = 0x08860E945CD25A80#128 := by decide +kernel

/-- V5.1: the folded product and the merged value. -/
theorem test_combine_1 :
    combineProduct 0x75D343C4#32 0x76AB22E2#32 1 = 0x1EA411B7BCECA53E#64
      ∧ (after (exec (.combine 1) (withLanes 0x75D343C4#32 0x76AB22E2#32 0 0x1716151413121110#64))).crc0 = 0xD643786A#32 := by
  decide +kernel

/-- V5.4, the largest block. -/
theorem test_combine_128 :
    (after (exec (.combine 128) (withLanes 0xD3209170#32 0xC271B0F3#32 0x4710D3CA#32 0xFFFEFDFCFBFAF9F8#64))).acc
      = 0xF9DE88A3#32 := by decide +kernel

/-- V6. -/
theorem test_prologue :
    (ran .prologue (withBuffer 0x1001 16 (addressPattern 0x1001 16))).acc = 0x42C59B23#32
      ∧ (ran .prologue (withBuffer 0x1001 16 (addressPattern 0x1001 16))).addr = 0x1008#64
      ∧ (ran .prologue (withBuffer 0x1001 16 (addressPattern 0x1001 16))).len = 9#64 := by decide +kernel

theorem test_prologue_short :
    (ran .prologue (withBuffer 0x1001 6 (addressPattern 0x1001 16))).acc = 0xFFFFFFFF#32
      ∧ (ran .prologue (withBuffer 0x1001 6 (addressPattern 0x1001 16))).len = 6#64 := by decide +kernel

/-- V7. -/
theorem test_stripe :
    (ran .stripe (withBuffer 0x2000 100 (addressPattern 0x2000 100))).crc0 = 0x07409E16#32
      ∧ (ran .stripe (withBuffer 0x2000 100 (addressPattern 0x2000 100))).addr = 0x2060#64
      ∧ (ran .stripe (withBuffer 0x2000 100 (addressPattern 0x2000 100))).len = 4#64 := by decide +kernel

theorem test_stripe_misaligned : (ran .stripe (withBuffer 0x2001 10 [])).status.word = 0x504#64 := by decide +kernel

theorem test_epilogue :
    (ran .epilogue (withBuffer 0x3000 23 (addressPattern 0x3000 23))).acc = 0x82C46CF2#32
      ∧ (ran .epilogue (withBuffer 0x3000 23 (addressPattern 0x3000 23))).addr = 0x3017#64 := by decide +kernel

theorem test_epilogue_misaligned :
    (ran .epilogue (withBuffer 0x3005 5 (addressPattern 0x3005 5))).acc = 0x37CA36B9#32
      ∧ (ran .epilogue (withBuffer 0x3001 8 [])).status.word = 0x504#64 := by decide +kernel

/-- P1, and S2 at another alignment. -/
theorem test_compute :
    (ran .compute (withBuffer 0x1000 9 (cells 0x1000 digits))).acc = 0x1CF96D7C#32
      ∧ (ran .compute (withBuffer 0x1003 9 (cells 0x1003 digits))).acc = 0x1CF96D7C#32 := by decide +kernel

/-- V9: a buffer whose last byte is the last of the address space. -/
theorem test_compute_top :
    (ran .compute (withBuffer (2 ^ 64 - 8) 8 [])).addr = 0
      ∧ (ran .compute (withBuffer (2 ^ 64 - 8) 8 [])).status.word = 0x2#64 := by decide +kernel

/-- V9, its faults. -/
theorem test_faults :
    (after (commandWrite 0x00000005#32 State.reset)).status.word = 0x104#64
      ∧ (after (commandWrite 0x00008112#32 State.reset)).status.word = 0x204#64
      ∧ (after (commandWrite 0x00000014#32 (withBuffer 0 1 []))).status.word = 0x304#64
      ∧ (after (commandWrite 0x00000010#32 (withBuffer (2 ^ 64 - 8) 9 []))).status.word = 0x404#64
      ∧ (after (commandWrite 0x00000011#32 (withBuffer (2 ^ 64 - 7) 100 []))).status.word = 0x404#64 := by decide +kernel

/-- V9, the bus error. -/
theorem test_bus_fault :
    (ran .compute (withOddByte .error)).status.word = 0x604#64
      ∧ (ran .compute (withOddByte .error)).erraddr = 0x5009#64 := by decide +kernel

/-- V9, the drops. -/
theorem test_drop :
    (after (commandWrite 0x00008012#32 faulted)).status.word = 0x20C#64
      ∧ (after (commandWrite 0x00000014#32 busyState)).status.word = 0x9#64 := by decide +kernel

/-- P4: a host write of 0xC to `STATUS`. -/
theorem test_clear_status : (after (hostWrite 0x10#64 8 0xC#64 { faulted with status := { faulted.status with drop := true } })).status.word = 0 := by
  decide +kernel

/-- P6: a register written as two halves. -/
theorem test_half_writes :
    (after (hostWrite 0x34#64 4 0x2#64 (after (hostWrite 0x30#64 4 0x1000#64 State.reset)))).addr = 0x200001000#64 := by decide +kernel

/-- V4. -/
theorem test_window_reads :
    (hostRead 0x000#64 8 State.reset).resp = .value 0x0000000001048008#64
      ∧ (hostRead 0x800#64 8 State.reset).resp = .value 0x00000000493C7D27#64
      ∧ (hostRead 0x818#64 8 State.reset).resp = .value 0x00000000493C7D27#64
      ∧ (hostRead 0xFF0#64 8 State.reset).resp = .value 0x00000000A51B6135#64
      ∧ (hostRead 0xFF8#64 8 State.reset).resp = .value 0x00000000170076FA#64 := by decide +kernel

/-- V10: the interrupt output after NOP with `DONE_IE` set. -/
theorem test_irq : (after (exec .nop { State.reset with irqen := 1#2 })).irq = true := by decide +kernel

/-- The first step from reset runs the scheduled command. -/
theorem test_first_step : (after (step (State.reset.withFetchWord 32 0x00000012))).status.word = 0x204#64 := by decide +kernel

/-- The lines of program P1, as its table lists them. -/
theorem test_program_lines :
    programLines 0 (pseudoCrc32c 0x1000 9 0xFFFFFFFF#32 ++ [.rd .acc]) =
      some [.write 0x030 8 0x1000, .write 0x038 8 9, .write 0x020 8 0xFFFFFFFF, .write 0x008 4 0x14, .wait,
        .read 0x020 8] := by decide

/-- P6's split write, the offset of the last ROM entry's second half, and the lines the assembler does not take. -/
theorem test_split_write_lines :
    programLines 0 [.wr32hi .addr 0, .wr32lo .addr 0x1000] = some [.write 0x034 4 0, .write 0x030 4 0x1000]
      ∧ (Reg.mtHi 127).offset = 0xFF8
      ∧ programLines 0 [.command (.combine 256)] = none ∧ programLines 0 [.rd (.mtLo 128)] = none := by decide

/-- `WAIT` stays the host's next line while the engine is busy, and is done with once it is idle (rule R116). -/
theorem test_wait_is_a_loop :
    (after (hostLine { busyState with program := [.wait] })).program = [.wait]
      ∧ (after (hostLine { runJob busyState with program := [.wait] })).program = [] := by decide +kernel

/-- Program P1 up to its `WAIT`: the command write starts the job, and the next step runs it on. -/
theorem test_line_then_job :
    (after (step { withBuffer 0x1000 9 (cells 0x1000 digits) with program := [.write 0x008 4 0x14, .wait] })).status.word
        = 0x1#64
      ∧ (after (step { busyState with program := [.wait] })).status.word = 0x2#64 := by decide +kernel

/-- Rule R83: the upper half of `ACC` reads 0 while a job runs. -/
theorem test_busy_upper_half : (hostRead 0x24#64 4 busyState).resp = .value 0 := by
  show HostResp.value (readPart 0x24 4 (Reg.acc.anyValue busyState.drawn)) = _
  generalize busyState.drawn = x
  simp only [readPart, Reg.anyValue, Reg.isNarrow, if_true, if_false, Nat.reduceMod, OfNat.ofNat_ne_zero,
    Nat.reduceEqDiff, HostResp.value.injEq]
  ext k
  simp

/-! ### Witnesses: states and operands that meet the hypotheses of the statements, with their boundary values -/

theorem witness_DecodeOfEncode : (Instr.combine 255).wellFormed = true ∧ Instr.compute.wellFormed = true := by decide

theorem witness_EncodeOfDecode : decodeWord 0x00008012#32 = .ok (.combine 128) := by decide

theorem witness_IllegalWordsFault :
    illegalWord 0x00000005#32 = true ∧ illegalWord 0x00000114#32 = true ∧ illegalWord 0x00010000#32 = true
      ∧ illegalWord 0x0000FF12#32 = false ∧ State.reset.status.busy = false ∧ State.reset.status.err = false := by decide

theorem witness_WorkedEncodings : seeded.status.busy = false ∧ seeded.status.err = false := by decide

theorem witness_StepRunsTheDecodedCommand :
    (∃ s : State, s.events = .hostWrite (s.windowAddr 0x008) 4 0x14 :: [] ∧ decodeWord ((0x14#64).setWidth 32) = .ok .compute)
      ∧ (∃ s : State, s.events = .hostWrite (s.windowAddr 0x008) 8 0xFF00000005 :: []
        ∧ decodeWord ((0xFF00000005#64).setWidth 32) = .error .unknownOpcode)
      ∧ ∃ s : State, s.events = .hostWrite (s.windowAddr 0x00C) 4 0x14 :: [] :=
  ⟨⟨{ State.reset with events := [.hostWrite 8 4 0x14] }, by decide⟩,
    ⟨{ State.reset with events := [.hostWrite 8 8 0xFF00000005] }, by decide⟩,
    ⟨{ State.reset with events := [.hostWrite 0xC 4 0x14] }, by decide⟩⟩

theorem witness_ScheduledWordRunsNext :
    decodeTableWord 32 0x00008012 = some (.combine 128) ∧ decodeTableWord 8 0x14 = some .compute := by decide

theorem witness_CommandWriteAcceptance :
    busyState.status.busy = true ∧ faulted.status.err = true
      ∧ (State.reset.status.busy = false ∧ State.reset.status.err = false)
      ∧ illegalWord 0x00000005#32 = true
      ∧ (decodeWord 0x00000012#32 = .ok (.combine 0) ∧ commandCheck (.combine 0) State.reset = some .bsize)
      ∧ (decodeWord 0x00000014#32 = .ok .compute ∧ commandCheck .compute seeded = none ∧ readsMemory .compute = true
        ∧ seeded.eager = true)
      ∧ (decodeWord 0 = .ok .nop ∧ commandCheck .nop State.reset = none
        ∧ { State.reset with eager := false }.eager = false) := by decide +kernel

/-- The causes at their boundaries: block sizes 0, 1, 128, 129; `ADDR = 0`; a buffer that ends at `2^64` and one byte
past it; misalignment with `LEN` 7 and 8; RANGE before ALIGN. -/
theorem witness_PreconditionFaultCauses :
    commandCheck (.combine 0) seeded = some .bsize ∧ commandCheck (.combine 1) seeded = none
      ∧ commandCheck (.combine 128) seeded = none ∧ commandCheck (.combine 129) seeded = some .bsize
      ∧ commandCheck .compute (withBuffer 0 1 []) = some .null ∧ commandCheck .compute (withBuffer 0 0 []) = none
      ∧ commandCheck .prologue (withBuffer (2 ^ 64 - 8) 8 []) = none
      ∧ commandCheck .prologue (withBuffer (2 ^ 64 - 8) 9 []) = some .range
      ∧ commandCheck .epilogue (withBuffer 0x3001 7 []) = none
      ∧ commandCheck .epilogue (withBuffer 0x3001 8 []) = some .align
      ∧ commandCheck .stripe (withBuffer 0x2001 10 []) = some .align
      ∧ commandCheck .stripe (withBuffer (2 ^ 64 - 7) 100 []) = some .range
      ∧ seeded.status.busy = false ∧ seeded.status.err = false := by decide

theorem witness_StepCommandResults :
    (withData 0xFFFFFFFF#32 0x3837363534333231#64).ready ∧ (withData 0xFFFFFFFF#32 0x3837363534333231#64).eager = true
      ∧ ({ withData 1 2 with eager := false }).ready ∧ ({ withData 1 2 with eager := false }).eager = false
      ∧ (Instr.step4, 4) ∈ [(Instr.step1, 1), (.step2, 2), (.step4, 4), (.step8, 8)] := by decide

theorem witness_StepBytesLaws : (4 ≤ 4 ∧ 4 ≤ 8) ∧ (4 ≤ 8 ∧ 8 ≤ 8) ∧ 3 + 5 ≤ 8 ∧ 0 + 8 ≤ 8 := by decide

theorem witness_StepBytesPolynomial : (1 ≤ 1 ∧ 1 ≤ 8) ∧ (1 ≤ 8 ∧ 8 ≤ 8) := by decide

theorem witness_NopResult :
    (State.reset.ready ∧ State.reset.eager = true ∧ State.reset.status.word = 0)
      ∧ (({ State.reset with eager := false }).ready ∧ ({ State.reset with eager := false }).eager = false)
      ∧ busyState.status.busy = true ∧ faulted.status.err = true := by
  decide +kernel

theorem witness_CarrylessProductLaws : (0xFFFFFFFF#64).toNat < 2 ^ 32 ∧ (0x80000000#64).toNat < 2 ^ 32 := by decide

/-- The first and the last entry of the ROM, as rule R45 lists them. -/
theorem witness_MultiplierRomFormula :
    (1 ≤ 1 ∧ 1 ≤ 128) ∧ (romEntry 0).extractLsb' 0 32 = 0x493C7D27#32
      ∧ (romEntry 127).extractLsb' 0 32 = 0xA51B6135#32 ∧ (romEntry 127).extractLsb' 64 32 = 0x170076FA#32 := by decide

/-- One loop-unit, the bytes 0x00 to 0x17 of V5.1. -/
theorem witness_CombineEqualsSequential :
    (1 ≤ 1 ∧ 1 ≤ 128) ∧ seq 0xFFFFFFFF#32 (bytesFrom (fun a => BitVec.ofNat 8 a) 0 8) = 0x75D343C4#32
      ∧ seq 0 (bytesFrom (fun a => BitVec.ofNat 8 a) 8 8) = 0x76AB22E2#32
      ∧ seq 0xFFFFFFFF#32 (bytesFrom (fun a => BitVec.ofNat 8 a) 0 24) = 0xD643786A#32 := by decide +kernel

theorem witness_CombineResult :
    ((withLanes 1 2 3 4).ready ∧ (withLanes 1 2 3 4).eager = true)
      ∧ (({ withLanes 1 2 3 4 with eager := false }).ready ∧ ({ withLanes 1 2 3 4 with eager := false }).eager = false)
      ∧ (1 ≤ 1 ∧ 1 ≤ 128 ∧ 1 ≤ 255) ∧ (1 ≤ 128 ∧ 128 ≤ 128) ∧ (0 < 1 ∨ 128 < 0) ∧ (129 < 1 ∨ 128 < 129) := by decide

/-- `LEN` above `u`, equal to it, and below it (where `ADDR` stays misaligned). -/
theorem witness_PrologueResult :
    (∀ l ∈ [16, 7, 6], (withBuffer 0x1001 l []).ready ∧ commandCheck .prologue (withBuffer 0x1001 l []) = none
      ∧ (withBuffer 0x1001 l []).stableBuffer (prologueCount 0x1001 l))
      ∧ prologueCount 0x1001 16 = 7 ∧ prologueCount 0x1001 7 = 7 ∧ prologueCount 0x1001 6 = 0
      ∧ (runJob ((withBuffer 0x1001 6 []).started .prologue)).addr.toNat % 8 ≠ 0 := by decide +kernel

theorem witness_StripeResult :
    (withBuffer 0x2000 96 []).ready ∧ commandCheck .stripe (withBuffer 0x2000 96 []) = none
      ∧ 96 ≤ (withBuffer 0x2000 96 []).len.toNat ∧ (withBuffer 0x2000 96 []).stableBuffer 96 := by decide +kernel

theorem witness_StripeBelowThreshold :
    (withBuffer 0x2000 95 []).ready ∧ commandCheck .stripe (withBuffer 0x2000 95 []) = none
      ∧ (withBuffer 0x2000 95 []).len.toNat < 96 := by decide

theorem witness_EpilogueResult :
    ∀ l ∈ [0, 7, 8, 23], (withBuffer 0x3000 l []).ready ∧ commandCheck .epilogue (withBuffer 0x3000 l []) = none
      ∧ (withBuffer 0x3000 l []).stableBuffer l := by decide +kernel

theorem witness_TailReadIsExact : (1 ≤ 1 ∧ 1 ≤ 7) ∧ (1 ≤ 7 ∧ 7 ≤ 7) := by decide

/-- A buffer that does not stripe (95 bytes after the prologue) and one that does (96), and the last of the address space. -/
theorem witness_ComputeResult :
    ∀ p ∈ [(0x1003, 100), (0x1003, 101), (2 ^ 64 - 8, 8)],
      (withBuffer p.1 p.2 []).ready ∧ commandCheck .compute (withBuffer p.1 p.2 []) = none
        ∧ (withBuffer p.1 p.2 []).stableBuffer p.2 := by decide +kernel

theorem witness_ComputeZeroLength : (withBuffer 0 0 []).ready ∧ (withBuffer 0 0 []).len = 0 := by decide

theorem witness_ComputeContinuation :
    (withBuffer 0x1000 9 []).ready ∧ commandCheck .compute (withBuffer 0x1000 9 []) = none
      ∧ (withBuffer 0x1000 9 []).stableBuffer 9 ∧ 0 ≤ (withBuffer 0x1000 9 []).len.toNat
      ∧ 4 ≤ (withBuffer 0x1000 9 []).len.toNat ∧ 9 ≤ (withBuffer 0x1000 9 []).len.toNat := by decide

theorem witness_ComputeAlignmentIndependence :
    (withBuffer 0x1000 9 (cells 0x1000 digits)).ready ∧ (withBuffer 0x1003 9 (cells 0x1003 digits)).ready
      ∧ commandCheck .compute (withBuffer 0x1000 9 (cells 0x1000 digits)) = none
      ∧ commandCheck .compute (withBuffer 0x1003 9 (cells 0x1003 digits)) = none
      ∧ (withBuffer 0x1000 9 (cells 0x1000 digits)).stableBuffer 9
      ∧ (withBuffer 0x1003 9 (cells 0x1003 digits)).stableBuffer 9
      ∧ (withBuffer 0x1000 9 (cells 0x1000 digits)).buffer 9 = (withBuffer 0x1003 9 (cells 0x1003 digits)).buffer 9 := by
  decide +kernel

theorem witness_ComputeIgnoresLaneRegisters :
    (withBuffer 0x1000 96 []).ready ∧ (withBuffer 0x1000 96 []).stableBuffer 96 := by decide +kernel

theorem witness_ReadSetIsExact :
    commandCheck .compute (withBuffer 0x1003 101 []) = none ∧ commandCheck .stripe (withBuffer 0x2000 96 []) = none
      ∧ commandCheck .nop seeded = none := by decide

/-- EPILOGUE over 13 bytes passes its check and reads the words and the tail of rule R230. -/
theorem witness_ReadWidthsAndAlignment :
    commandCheck .epilogue (withBuffer 0x3000 13 []) = none
      ∧ readPlan epilogueBody (withBuffer 0x3000 13 []) = [⟨0x3000, 8⟩, ⟨0x3008, 4⟩, ⟨0x300C, 1⟩] := by decide

/-- Two memories that agree on the one byte that EPILOGUE reads and differ past it. -/
theorem witness_ResultDependsOnBytesReadOnly :
    ∃ b b' : Bytes, b ≠ b' ∧
      ∀ q ∈ (jobBody .epilogue b (Run.load (withBuffer 0x3000 1 []))).reads, ∀ a ∈ q.bytes, b a = b' a :=
  ⟨fun _ => 0, fun a => if a = 0x3001 then 1 else 0, fun h => absurd (congrFun h 0x3001) (by decide), by decide⟩

/-- A command that completes in its acceptance step, and one whose job runs on; below, at and above the lane threshold,
and with nothing to consume. -/
theorem witness_WriteSets :
    (∃ t, exec .nop seeded = .next t ∧ t.status.done = true ∧ seeded.ready)
      ∧ (∀ p ∈ [(0x1000, 0), (0x1000, 9), (0x1000, 95), (0x1000, 96)],
        (withBuffer p.1 p.2 []).ready ∧ commandCheck .compute (withBuffer p.1 p.2 []) = none
          ∧ (runJob ((withBuffer p.1 p.2 []).started .compute)).status.done = true)
      ∧ consumedCount .compute 0x1000 0 = 0 ∧ lanesWritten .compute 0x1000 95 = false
      ∧ lanesWritten .compute 0x1000 96 = true ∧ readsMemory .step8 = false :=
  ⟨⟨_, rfl, by decide, by decide⟩, by decide +kernel⟩

/-- A step that is no store, and stores of a zero and of another byte over one another. -/
theorem witness_EngineNeverWritesMemory :
    (∃ t, step seeded = .next t ∧ ∀ a v rest, seeded.events ≠ .store a v :: rest)
      ∧ ∀ v ∈ [0#8, 7#8],
        Memory.wf (cells 5 [1, 2]) = true
          ∧ ∃ t, step { seeded with mem := cells 5 [1, 2], events := [.store 5 v] } = .next t :=
  ⟨⟨_, rfl, fun _ _ _ h => nomatch h⟩, fun _ _ => ⟨by decide, _, rfl⟩⟩

theorem witness_BusFaultReport :
    (withOddByte .error).ready ∧ commandCheck .compute (withOddByte .error) = none
      ∧ (∃ r ∈ readPlan computeBody (withOddByte .error), r.failing (withOddByte .error).plat ≠ [])
      ∧ ∀ r ∈ readPlan computeBody (withOddByte .error), r.hasSilent (withOddByte .error).plat = false := by decide

theorem witness_SilentReadHangs :
    (withOddByte .silent).ready ∧ commandCheck .compute (withOddByte .silent) = none
      ∧ (∃ r ∈ readPlan computeBody (withOddByte .silent), r.hasSilent (withOddByte .silent).plat = true)
      ∧ ∀ r ∈ readPlan computeBody (withOddByte .silent), r.failing (withOddByte .silent).plat = [] := by decide

theorem stuckState_job :
    stuckState.job = some
      { cmd := .compute, reads := [⟨0x5000, 8⟩, ⟨0x5008, 8⟩], todo := [], out := [⟨0x5000, 8⟩, ⟨0x5008, 8⟩]
        failed := none, raced := false } := by decide

theorem stuckState_stuck : stuckState.stuck :=
  ⟨by decide, _, stuckState_job, ⟨0x5008, 8⟩, by decide, by decide⟩

theorem stuckState_inv : stuckState.Inv :=
  ⟨by decide, by decide, by decide, by decide, fun j h => by
    rw [stuckState_job] at h
    obtain rfl := Option.some.inj h
    exact ⟨by decide, by decide, by decide, fun _ h => nomatch h⟩, by decide⟩

/-- A step with nothing scheduled, a reset, and a state of the invariant. -/
theorem witness_OnlyResetLeavesStuck :
    stuckState.stuck ∧ (∃ t, step stuckState = .next t ∧ stuckState.events.head? ≠ some .reset)
      ∧ ({ stuckState with events := [.reset] }).stuck ∧ stuckState.Inv :=
  ⟨stuckState_stuck, ⟨_, rfl, by decide⟩, stuckState_stuck, stuckState_inv⟩

theorem busyState_job :
    busyState.job = some
      { cmd := .compute, reads := [⟨0x1000, 8⟩], todo := [⟨0x1000, 8⟩], out := [], failed := none, raced := false } := by
  decide

theorem witness_AnsweredJobEnds :
    ∃ j, busyState.job = some j ∧ (∀ r ∈ j.todo ++ j.out, r.hasSilent busyState.plat = false) ∧ busyState.events = [] :=
  ⟨_, busyState_job, by decide, by decide⟩

theorem witness_DeferredJobAgrees :
    seeded.ready ∧ commandCheck .step8 seeded = none ∧ readsMemory .step8 = false ∧ seeded.eager = true
      ∧ commandCheck (.combine 128) seeded = none ∧ readsMemory (.combine 128) = false := by decide

/-- COMPUTE's one read issued, and the next read still to come: the clauses about the reads' moves. -/
def issuedJob (todo out : List BusRead) (failed : Option Nat) : Job :=
  { cmd := .compute, reads := [⟨0x5000, 8⟩, ⟨0x5008, 8⟩], todo := todo, out := out, failed := failed, raced := false }

/-- Each clause: reads outstanding; reads to come; a read to issue; a read answered with data, with an error as the
first and as a later one, and never; after an error; and all answered. -/
theorem witness_JobEndsOnlyWhenAnswered :
    (∀ k ∈ [Answer.error, .silent], ({ withOddByte k with job := some (issuedJob [] [⟨0x5008, 8⟩] none) }).job
        = some (issuedJob [] [⟨0x5008, 8⟩] none))
      ∧ (issuedJob [] [⟨0x5008, 8⟩] none).out ≠ []
      ∧ ((issuedJob [⟨0x5008, 8⟩] [] none).failed = none ∧ (issuedJob [⟨0x5008, 8⟩] [] none).todo ≠ []
        ∧ (issuedJob [⟨0x5008, 8⟩] [] none).todo[0]? = some ⟨0x5008, 8⟩)
      ∧ ((issuedJob [] [⟨0x5000, 8⟩] none).out[0]? = some ⟨0x5000, 8⟩
        ∧ (BusRead.mk 0x5000 8).failing (oddPlatform 0x5009 .error) = []
        ∧ (BusRead.mk 0x5000 8).hasSilent (oddPlatform 0x5009 .error) = false)
      ∧ ((BusRead.mk 0x5008 8).failing (oddPlatform 0x5009 .error) ≠ []
        ∧ (BusRead.mk 0x5008 8).hasSilent (oddPlatform 0x5009 .error) = false)
      ∧ (BusRead.mk 0x5008 8).neverAnswers (oddPlatform 0x5009 .silent) = true
      ∧ ((issuedJob [⟨0x5000, 8⟩] [] (some 0x5009)).failed = some 0x5009
        ∧ (issuedJob [⟨0x5000, 8⟩] [] (some 0x5009)).out = [])
      ∧ ((issuedJob [] [] none).failed = none ∧ (issuedJob [] [] none).todo = [] ∧ (issuedJob [] [] none).out = []) :=
  ⟨fun _ _ => rfl, by decide⟩

theorem witness_AnyReadOrderSameResult :
    (withBuffer 0x1000 8 (cells 0x1000 digits)).ready
      ∧ commandCheck .compute (withBuffer 0x1000 8 (cells 0x1000 digits)) = none
      ∧ (∀ r ∈ readPlan computeBody (withBuffer 0x1000 8 (cells 0x1000 digits)),
        r.failing Platform.reset = [] ∧ r.hasSilent Platform.reset = false ∧ r.unstable Platform.reset [] = false)
      ∧ (∀ e ∈ [Event.issue 0, .answer 0], e.isReadMove = true)
      ∧ (afterMoves [.issue 0, .answer 0] ((withBuffer 0x1000 8 (cells 0x1000 digits)).started .compute)).job = some
        { cmd := .compute, reads := [⟨0x1000, 8⟩], todo := [], out := [], failed := none, raced := false } :=
  ⟨by decide, by decide, by decide, by decide, by decide⟩

/-- A raced job, its reads answered. -/
def racedJob : Job := { issuedJob [] [] none with raced := true }

/-- A store to the last byte a job reads; and a raced job, its reads answered, that writes the lanes and one that does
not. -/
theorem witness_RaceFreesTheResult :
    (∃ j, busyState.job = some j ∧ ∃ r ∈ j.reads, r.covers (0x1007#64).toNat = true)
      ∧ ∀ p ∈ [(96, true), (95, false)], ∃ (s : State) (j : Job), s.job = some j ∧ j.raced = true ∧ j.failed = none ∧ j.todo = []
        ∧ j.out = [] ∧ (∀ n, j.cmd ≠ .combine n) ∧ lanesWritten j.cmd s.addr.toNat s.len.toNat = p.2 :=
  ⟨⟨_, busyState_job, by decide⟩, fun p hp => by
    obtain rfl | rfl : p = (96, true) ∨ p = (95, false) := by simpa using hp
    · exact ⟨{ withBuffer 0x2000 96 [] with job := some racedJob }, racedJob, rfl, rfl, rfl, rfl, rfl,
        by simp [racedJob, issuedJob], by decide⟩
    · exact ⟨{ withBuffer 0x2000 95 [] with job := some racedJob }, racedJob, rfl, rfl, rfl, rfl, rfl,
        by simp [racedJob, issuedJob], by decide⟩⟩

/-- A byte of a device, a byte not published, and a port of each kind. -/
theorem witness_UnstableReadsFreeTheResult :
    ((withOddByte .device).ready ∧ commandCheck .compute (withOddByte .device) = none
        ∧ ∃ r ∈ readPlan computeBody (withOddByte .device), ∃ a ∈ r.bytes, (withOddByte .device).plat.answer a = .device)
      ∧ (∃ r ∈ readPlan computeBody { withBuffer 0x5000 16 [] with stale := [0x500F] }, ∃ a ∈ r.bytes,
        a ∈ { withBuffer 0x5000 16 [] with stale := [0x500F] }.stale)
      ∧ (∀ r ∈ readPlan computeBody (withOddByte .device),
        r.failing (withOddByte .device).plat = [] ∧ r.hasSilent (withOddByte .device).plat = false)
      ∧ ({ Platform.reset with coherent := false }).coherent = false ∧ Platform.reset.coherent = true := by decide

theorem witness_ResetStep : ({ stuckState with events := [.reset] }).events = [.reset] := by decide

theorem witness_ReturnFromFault :
    faulted.status.err = true ∧ (0xC#64).getLsbD 2 = true ∧ 4 ∈ [4, 8] ∧ 8 ∈ [4, 8] := by decide

theorem witness_StatusReadsItsFields :
    (FaultCode.bus, 6#4) ∈ [(FaultCode.none, 0#4), (.illegal, 1#4), (.bsize, 2#4), (.null, 3#4), (.range, 4#4),
        (.align, 5#4), (.bus, 6#4)]
      ∧ (ran .compute (withOddByte .error)).status.errcode = .bus ∧ seeded.status.errcode = .none := by decide +kernel

/-- A completion, a fault, and a job left running, each with both enables set; a job that has run on. -/
theorem witness_InterruptFollowsStatus :
    (∃ t, exec .nop { seeded with irqen := 3#2 } = .next t ∧ t.status.done = true)
      ∧ (∃ t, exec (.combine 0) { seeded with irqen := 3#2 } = .next t ∧ t.status.err = true)
      ∧ (∃ t, exec .nop { seeded with irqen := 3#2, eager := false } = .next t ∧ t.status.busy = true)
      ∧ (({ seeded with irqen := 3#2 }).ready ∧ commandCheck .compute { seeded with irqen := 3#2 } = none
        ∧ (runJob (({ seeded with irqen := 3#2 }).started .compute)).status.done = true)
      ∧ (0x6#64).getLsbD 1 = true ∧ (0x6#64).getLsbD 2 = true :=
  ⟨⟨_, rfl, by decide⟩, ⟨_, rfl, by decide⟩, ⟨_, rfl, by decide⟩, by decide⟩

theorem witness_HalfWritesCompose :
    0x028 ∈ [0x028, 0x030, 0x038] ∧ 0x038 ∈ [0x028, 0x030, 0x038] ∧ seeded.status.busy = false := by decide

/-- Idle and busy, and the read-only and reserved offsets at the ends of their ranges. -/
theorem witness_NarrowAndReadOnlyRegisters :
    seeded.status.busy = false ∧ busyState.status.busy = true ∧ 4 ∈ [4, 8] ∧ 8 ∈ [4, 8]
      ∧ 0x050 ∈ [0x020, 0x040, 0x048, 0x050]
      ∧ (accessOk 0x004 4 = true ∧ 0x004 < 8) ∧ (accessOk 0x058 8 = true ∧ 0x058 < 4096)
      ∧ (accessOk 0xFFC 4 = true ∧ 0x058 ≤ 0xFFC ∧ 0xFFC < 4096) := by decide

theorem witness_HostReadsHaveNoEffect :
    (accessOk 8 8 = true ∧ 8 ≤ 8) ∧ (accessOk 12 4 = true ∧ 12 < 16) ∧ (accessOk 0x060 8 = true ∧ 0x060 ≤ 0x060)
      ∧ (accessOk 0x7FC 4 = true ∧ 0x7FC < 0x800) := by decide

/-- One byte wide, misaligned for 4 and for 8 bytes, and wider than 8 bytes. -/
theorem witness_RefusedAccesses :
    ∀ p ∈ [(0, 1), (2, 4), (4, 8), (0xFFF, 2), (0, 16)],
      p.1 < 4096 ∧ ¬ ((p.2 = 4 ∧ p.1 % 4 = 0) ∨ (p.2 = 8 ∧ p.1 % 8 = 0)) := by decide

/-- The clauses at the ends of their ranges. -/
theorem witness_HostWritesDuringAJob :
    busyState.status.busy = true ∧ seeded.status.busy = false
      ∧ (accessOk 0x020 8 = true ∧ 0x020 < 0x058) ∧ (accessOk 0x054 4 = true ∧ 0x020 ≤ 0x054 ∧ 0x054 < 0x058)
      ∧ (accessOk 0x004 4 = true ∧ 0x004 < 8) ∧ (accessOk 0x058 8 = true ∧ 0x058 ≤ 0x058)
      ∧ (accessOk 0xFFC 4 = true ∧ 0x058 ≤ 0xFFC ∧ 0xFFC < 4096) ∧ ¬ (0x020 < 0x020) ∧ 4 ∈ [4, 8] := by decide

/-- Idle and busy, the first and the last entry of the ROM, and the ends of the reserved offsets. -/
theorem witness_ExactHostReads :
    seeded.status.busy = false ∧ busyState.status.busy = true ∧ 0 < 128 ∧ 127 < 128
      ∧ (0x060 ≤ 0x060 ∧ 0x060 % 8 = 0) ∧ (0x7F8 < 0x800 ∧ 0x7F8 % 8 = 0)
      ∧ 0x038 ∈ [0x030, 0x038] ∧ 0x050 ∈ [0x020, 0x040, 0x048, 0x050] := by decide

/-- Each kind of next line, busy and idle, and each schedule. -/
theorem witness_HostProgramLines :
    Instr.compute.wellFormed = true ∧ (Instr.combine 256).wellFormed = false
      ∧ (({ busyState with program := [.wait] }).program = [.wait] ∧ busyState.status.busy = true)
      ∧ (({ seeded with program := [.wait] }).program = [.wait] ∧ seeded.status.busy = false)
      ∧ ({ seeded with program := [.read 0x020 8] }).program = [.read 0x020 8]
      ∧ ({ seeded with program := [.write 0x008 4 0x14] }).program = [.write 0x008 4 0x14]
      ∧ seeded.program = []
      ∧ ({ seeded with events := [.line] }).events = [.line] ∧ ({ busyState with events := [.run] }).events = [.run]
      ∧ (seeded.events = [] ∧ seeded.job = none) ∧ (busyState.events = [] ∧ busyState.job.isSome = true) := by decide

theorem reset_inv : State.reset.Inv :=
  ⟨by decide, by decide, by decide, by decide, fun j h => absurd (show (none : Option Job) = some j from h) (by simp),
    by decide⟩

/-- A state with no job and one whose job is stuck. -/
theorem witness_InvariantKeptByStep :
    (State.reset.Inv ∧ ∃ t, step State.reset = .next t) ∧ stuckState.Inv ∧ ∃ t, step stuckState = .next t :=
  ⟨⟨reset_inv, _, rfl⟩, stuckState_inv, _, rfl⟩

end Sys2Proof.Tests
end

section
/-! The invariant of the machine: it holds at reset, and every move of an agent keeps it. -/

namespace Sys2Proof.Machine

/-! ### `STATUS` -/

/-- Rule R35's conditions on `STATUS`, written out. -/
theorem Status.ok_iff (t : Status) :
    t.ok = true ↔ (t.busy = true → t.done = false ∧ t.err = false) ∧ (t.err = false ↔ t.errcode = .none)
      ∧ (t.done = true → t.err = false) := by
  obtain ⟨busy, done, err, drop, errcode⟩ := t
  cases errcode <;> cases busy <;> cases done <;> cases err <;> simp [Status.ok]

/-- Clearing W1C bits keeps `STATUS` consistent: `ERRCODE` is zeroed with `ERR` (rule R313). -/
theorem State.clearStatus_ok {s : State} (v : Word64) (h : s.status.ok = true) : (s.clearStatus v).status.ok = true := by
  simp only [Status.ok_iff] at h ⊢
  cases hv : v.getLsbD 2 <;> simp_all

/-- The check of a command reports a fault by its code, never by the code of no fault. -/
theorem commandCheck_ne_none {i : Instr} {s : State} {c : FaultCode} (h : commandCheck i s = some c) : c ≠ .none := by
  rintro rfl
  cases i <;>
    simp [commandCheck, noCheck, checkBlockSize, checkBuffer, checkStripe, checkEpilogue, checkAligned8,
      Option.or_eq_some_iff, ite_eq_iff] at h

/-! ### States that meet the invariant -/

/-- While a job runs, `STATUS` shows neither an end nor a fault (rule R35). -/
theorem State.Inv.running {s : State} {j : Job} (h : s.Inv) (hj : s.job = some j) :
    s.status.busy = true ∧ s.status.done = false ∧ s.status.err = false ∧ s.status.errcode = .none := by
  obtain ⟨-, -, hok, hbusy, -⟩ := h
  have hb : s.status.busy = true := by rw [← hbusy, hj]; rfl
  obtain ⟨hrun, hcode, -⟩ := (Status.ok_iff _).1 hok
  exact ⟨hb, (hrun hb).1, (hrun hb).2, hcode.1 (hrun hb).2⟩

theorem State.Inv.job_fits {s : State} {j : Job} (h : s.Inv) (hj : s.job = some j) : j.fits s := by
  obtain ⟨-, -, -, -, hfits, -⟩ := h
  exact hfits j hj

/-- A state with no job, of the same memory, unpublished bytes and platform. -/
theorem State.Inv.of_idle {s t : State} (h : s.Inv) (hok : t.status.ok = true) (hbusy : t.status.busy = false)
    (hjob : t.job = none) (hmem : t.mem = s.mem) (hstale : t.stale = s.stale) (hplat : t.plat = s.plat) : t.Inv := by
  obtain ⟨hwf, hrise, -, -, -, hbase⟩ := h
  exact ⟨by rw [hmem, hwf], by rw [hstale]; exact hrise, hok, by rw [hjob, hbusy]; rfl,
    fun j hj => by simp [hjob] at hj, by rw [hplat, hbase]⟩

/-- The same state but for the schedule, the host's side and `IRQEN`. -/
theorem State.Inv.of_outside {s t : State} (h : s.Inv)
    (ht : { t with irqen := s.irqen, events := s.events, program := s.program, resp := s.resp, eager := s.eager,
                   draws := s.draws } = s) : t.Inv :=
  State.inv_congr (s := { t with irqen := s.irqen, events := s.events, program := s.program, resp := s.resp,
                                 eager := s.eager, draws := s.draws })
    (ht.symm ▸ h) rfl rfl rfl rfl rfl rfl rfl rfl

/-- The same state with the reads of its job moved on. -/
theorem State.Inv.of_job {s t : State} {j j' : Job} (h : s.Inv) (hj : s.job = some j)
    (ht : { t with job := s.job, draws := s.draws } = s) (hj' : t.job = some j') (hcmd : j'.cmd = j.cmd)
    (hreads : j'.reads = j.reads)
    (hleft : ∀ r ∈ j'.todo ++ j'.out, r ∈ j.reads)
    (hfailed : ∀ a, j'.failed = some a → ∃ r ∈ j.reads, a ∈ r.failing s.plat) : t.Inv := by
  have hfits : j.fits t :=
    Job.fits_congr (s := { t with job := s.job, draws := s.draws }) rfl rfl rfl rfl (ht.symm ▸ h.job_fits hj)
  obtain ⟨hcheck, hplan, -, -⟩ := hfits
  obtain ⟨hwf, hrise, hok, hbusy, -, hbase⟩ := h
  rw [← ht] at hwf hrise hok hbusy hbase hfailed
  refine ⟨hwf, hrise, hok, ?_, fun k hk => ?_, hbase⟩
  · rw [hj', ← hbusy]; simp [hj]
  · obtain rfl : j' = k := Option.some.inj (hj' ▸ hk)
    exact ⟨by rw [hcmd]; exact hcheck, by rw [hcmd, hreads]; exact hplan, by rw [hreads]; exact hleft,
      by rw [hreads]; exact hfailed⟩

/-- A failing address picked from a list is one of the list (rule R306). -/
theorem State.pickFailing_mem (s : State) {l : List Nat} (hl : l ≠ []) : s.pickFailing l ∈ l := by
  match l, hl with
  | [a], _ => exact List.mem_singleton_self a
  | a :: b :: l, _ =>
    have hlt : s.drawn.toNat % (a :: b :: l).length < (a :: b :: l).length := Nat.mod_lt _ (Nat.succ_pos _)
    rw [State.pickFailing, List.getD_eq_getElem _ _ hlt]
    exact List.getElem_mem hlt

/-! ### The engine's and the memory's moves -/

/-- A BUS fault ends the job (rule R308). -/
theorem busFault_inv {s : State} {j : Job} (cmd : Instr) (a n : Nat) (h : s.Inv) (hj : s.job = some j) :
    (busFault cmd a (s.spend n)).Inv := by
  refine h.of_idle ?_ rfl rfl rfl rfl rfl
  obtain ⟨-, hdone, -, -⟩ := h.running hj
  simp [busFault, Status.ok_iff, hdone]

/-- A completion ends the job (rule R309). -/
theorem endJob_inv {s : State} {j : Job} (body : Body) (h : s.Inv) (hj : s.job = some j) : (endJob body j s).Inv := by
  obtain ⟨-, -, herr, hcode⟩ := h.running hj
  simp only [endJob]
  split <;> exact h.of_idle (by simp [Status.ok_iff, herr, hcode]) rfl rfl rfl rfl rfl

/-- A job run on to its end, or to where it waits. -/
theorem settle_inv {s : State} {j : Job} (body : Body) (h : s.Inv) (hj : s.job = some j) : (settle body j s).Inv := by
  rcases settle_cases body j s with ⟨out, n, heq, -, hout, -⟩ | ⟨a, n, heq, -⟩ | ⟨heq, -⟩ <;> rw [heq]
  · obtain ⟨-, -, hleft, hfailed⟩ := h.job_fits hj
    refine h.of_job hj rfl rfl rfl rfl (fun r hr => hleft r ?_) hfailed
    exact List.mem_append.2 (List.mem_append.1 (hout r hr)).symm
  · exact busFault_inv j.cmd a n h hj
  · exact endJob_inv body h hj

theorem runJob_inv {s : State} (h : s.Inv) : (runJob s).Inv := by
  unfold runJob
  split
  · exact h
  · next j hj => exact settle_inv _ h hj

theorem finishJob_inv {s : State} (h : s.Inv) : (finishJob s).Inv := by
  unfold finishJob
  split
  · exact h
  · next j hj =>
    split
    · split
      · next a _ => exact busFault_inv j.cmd a 0 h hj
      · split
        · exact endJob_inv _ h hj
        · exact h
    · exact h

/-- An issued read was one of the reads left. -/
theorem issueRead_inv {s : State} (k : Nat) (h : s.Inv) : (issueRead k s).Inv := by
  unfold issueRead
  split
  · exact h
  · next j hj =>
    split
    · next r hf hr =>
      obtain ⟨-, -, hleft, -⟩ := h.job_fits hj
      refine h.of_job hj rfl rfl rfl rfl (fun q hq => hleft q ?_) (fun a ha => by simp [hf] at ha)
      have htodo : q ∈ j.todo.eraseIdx k → q ∈ j.todo := List.mem_of_mem_eraseIdx
      have hissued : q = r → q ∈ j.todo := fun e => e ▸ List.mem_of_getElem? hr
      simp only [List.mem_append, List.mem_singleton] at hq ⊢
      tauto
    · exact h

/-- An answered read leaves the outstanding ones; the failing byte of the first error answer is one of that read's. -/
theorem answerOne_inv {s : State} {j : Job} {k : Nat} {r : BusRead} (h : s.Inv) (hj : s.job = some j)
    (hr : j.out[k]? = some r) : (answerOne j k r s).Inv := by
  obtain ⟨-, -, hleft, hfailed⟩ := h.job_fits hj
  have hrest : ∀ q ∈ j.todo ++ j.out.eraseIdx k, q ∈ j.reads := fun q hq =>
    hleft q (List.mem_append.2 ((List.mem_append.1 hq).imp_right List.mem_of_mem_eraseIdx))
  unfold answerOne
  split
  · exact h
  · split
    · exact h.of_job hj rfl rfl rfl rfl hrest hfailed
    · next hbad =>
      split
      · exact h.of_outside rfl
      · refine h.of_job hj rfl rfl rfl rfl hrest fun a ha => ?_
        cases hf : j.failed with
        | some b => exact hfailed a (by simpa [hf] using ha)
        | none =>
          refine ⟨r, hleft r (List.mem_append_right _ (List.mem_of_getElem? hr)), ?_⟩
          obtain rfl : (s.spend 1).pickFailing (r.failing s.plat) = a := by simpa [hf] using ha
          exact State.pickFailing_mem _ (by simpa using hbad)

theorem answerRead_inv {s : State} (k : Nat) (h : s.Inv) : (answerRead k s).Inv := by
  unfold answerRead
  split
  · exact h
  · next j hj =>
    split
    · exact h
    · next r hr => exact answerOne_inv h hj hr

/-! ### Stores -/

theorem markRace_inv {s : State} (a : Nat) (h : s.Inv) : (markRace a s).Inv := by
  unfold markRace
  split
  · exact h
  · next j hj =>
    obtain ⟨-, -, hleft, hfailed⟩ := h.job_fits hj
    exact h.of_job hj rfl rfl rfl rfl hleft hfailed

theorem storeByte_inv {s : State} (a : Word64) (v : Byte) (h : s.Inv) : (storeByte a v s).Inv := by
  refine markRace_inv a.toNat ?_
  obtain ⟨hwf, hrise, hok, hbusy, hfits, hbase⟩ := h
  refine ⟨Memory.wf_write a.isLt hwf, ?_, hok, hbusy,
    fun j hj => Job.fits_congr (s := s) rfl rfl rfl rfl (hfits j hj), hbase⟩
  show risingAddrs (if s.plat.coherent then s.stale else insertAddr s.stale a.toNat)
  split
  · exact hrise
  · exact risingAddrs_insertAddr hrise

theorem publish_inv {s : State} (h : s.Inv) : ({ s with stale := [] }).Inv := by
  obtain ⟨hwf, -, hok, hbusy, hfits, hbase⟩ := h
  exact ⟨hwf, List.Pairwise.nil, hok, hbusy, fun j hj => Job.fits_congr (s := s) rfl rfl rfl rfl (hfits j hj), hbase⟩

/-! ### Command writes -/

/-- A precondition fault, from an engine that accepts commands (rule R302). -/
theorem acceptFault_inv {s : State} {c : FaultCode} (h : s.Inv) (hc : c ≠ .none) : (s.accept.raiseFault c 0).Inv :=
  h.of_idle (by simp [Status.ok_iff, hc]) rfl rfl rfl rfl rfl

/-- The job of a command that passed its checks (rule R300). -/
theorem startJob_inv {s : State} {i : Instr} (h : s.Inv) (herr : s.status.err = false)
    (hc : commandCheck i s = none) : (startJob i (jobBody i) s.accept).Inv := by
  obtain ⟨hwf, hrise, hok, -, -, hbase⟩ := h
  have hcode : s.status.errcode = .none := ((Status.ok_iff _).1 hok).2.1.1 herr
  refine ⟨hwf, hrise, by simp [Status.ok_iff, herr, hcode], rfl, fun j hj => ?_, hbase⟩
  obtain rfl : startedJob i (jobBody i) s.accept = j := Option.some.inj hj
  have hcheck : commandCheck i (startJob i (jobBody i) s.accept) = commandCheck i s := commandCheck_congr i rfl rfl
  exact ⟨hcheck.trans hc, readPlan_congr (t := s.accept) _ rfl, by simp [startedJob], by simp [startedJob]⟩

theorem onCommand_inv {s : State} (i : Instr) (h : s.Inv) :
    (onCommand i (commandCheck i) (jobBody i) s).Inv := by
  cases hb : s.blocked with
  | true => rw [onCommand_blocked hb]; exact State.inv_dropWrite h
  | false =>
    have herr : s.status.err = false := (Bool.or_eq_false_iff.1 hb).2
    cases hc : commandCheck i s with
    | some c => rw [onCommand_fault hb hc]; exact acceptFault_inv h (commandCheck_ne_none hc)
    | none =>
      have hstart := startJob_inv h herr hc
      cases he : s.eager && !readsMemory i with
      | false => rw [onCommand_deferred hb hc he]; exact hstart
      | true => rw [onCommand_eager hb hc he]; exact settle_inv _ hstart rfl

/-- Every command word is answered with a next state: its command's, or an illegal word's (rules R114, R300). -/
theorem commandWrite_cases (w : Word32) (s : State) :
    (∃ i, commandWrite w s = .next (onCommand i (commandCheck i) (jobBody i) s))
      ∨ commandWrite w s = .next (onIllegal s) := by
  unfold commandWrite
  split
  · next i _ => exact .inl ⟨i, exec_eq_onCommand i s⟩
  · exact .inr rfl

theorem onIllegal_inv {s : State} (h : s.Inv) : (onIllegal s).Inv := by
  unfold onIllegal
  split
  · exact State.inv_dropWrite h
  · exact acceptFault_inv h (by decide)

theorem commandWrite_inv {s t : State} {w : Word32} (h : s.Inv) (ht : commandWrite w s = .next t) : t.Inv := by
  rcases commandWrite_cases w s with ⟨i, heq⟩ | heq <;> cases heq.symm.trans ht
  · exact onCommand_inv i h
  · exact onIllegal_inv h

/-! ### Host accesses -/

theorem hostRead_inv {s : State} (a : Word64) (width : Nat) (h : s.Inv) : (hostRead a width s).Inv := by
  unfold hostRead windowRead
  split
  · exact h
  · split
    · split <;> exact h.of_outside rfl
    · exact h.of_outside rfl

/-- A register write changes `STATUS` by its W1C bits only, and operand registers only while no job runs (rule R314). -/
theorem windowWrite_inv {s : State} (o width : Nat) (v : Word64) (h : s.Inv) : (windowWrite o width v s).Inv := by
  unfold windowWrite
  split
  · exact State.inv_dropWrite h
  · next hdrop =>
    obtain ⟨hwf, hrise, hok, hbusy, hfits, hbase⟩ := id h
    have hidle : (regAt o).isOperand = true → s.status.busy = false ∧ s.job = none := by
      intro ho
      have hb : s.status.busy = false := by simpa [ho] using hdrop
      exact ⟨hb, by simpa [hb] using hbusy⟩
    generalize writePart o width (regValue s (regAt o)) v = x
    generalize writePart o width 0 v = mask
    cases hr : regAt o <;> simp only [hr, Reg.isOperand, true_implies] at hidle <;> simp only [regWrite]
    case status =>
      exact ⟨hwf, hrise, State.clearStatus_ok mask hok, hbusy,
        fun j hj => Job.fits_congr (s := s) rfl rfl rfl rfl (hfits j hj), hbase⟩
    case irqen => exact h.of_outside rfl
    case acc | data | addr | len | crc0 | crc1 | crc2 => exact h.of_idle hok hidle.1 hidle.2 rfl rfl rfl
    case caps | cmd | erraddr | reserved | mtLo | mtHi => exact h

theorem hostWrite_inv {s t : State} {a : Word64} {width : Nat} {v : Word64} (h : s.Inv)
    (ht : hostWrite a width v s = .next t) : t.Inv := by
  have hresp : ∀ r, ({ s with resp := r }).Inv := fun r => h.of_outside rfl
  unfold hostWrite at ht
  split at ht
  · cases ht; exact h
  · split at ht
    · split at ht
      · exact commandWrite_inv (hresp _) ht
      · cases ht; exact windowWrite_inv _ _ _ (hresp _)
    · cases ht; exact hresp _

theorem waitTurn_inv {s : State} (rest : List HostLine) (h : s.Inv) : (waitTurn rest s).Inv := by
  refine hostRead_inv _ _ ?_
  split
  · exact h
  · exact h.of_outside rfl

theorem hostLine_inv {s t : State} (h : s.Inv) (ht : hostLine s = .next t) : t.Inv := by
  have hprogram : ∀ rest, ({ s with program := rest }).Inv :=
    fun rest => h.of_outside rfl
  unfold hostLine at ht
  split at ht
  · cases ht; exact h
  · cases ht; exact hostRead_inv _ _ (hprogram _)
  · exact hostWrite_inv (hprogram _) ht
  · cases ht; exact waitTurn_inv _ h

/-! ### The step -/

theorem resetEngine_inv {s : State} (h : s.Inv) : s.resetEngine.Inv := h.of_idle rfl rfl rfl rfl rfl rfl

theorem perform_inv {s t : State} {e : Event} (h : s.Inv) (ht : perform e s = .next t) : t.Inv := by
  cases e <;> simp only [perform, Host.Outcome.next.injEq] at ht
  case hostWrite => exact hostWrite_inv h ht
  case line => exact hostLine_inv h ht
  all_goals subst ht
  case hostRead => exact hostRead_inv _ _ h
  case pace => exact h.of_outside rfl
  case issue => exact issueRead_inv _ h
  case answer => exact answerRead_inv _ h
  case finish => exact finishJob_inv h
  case run => exact runJob_inv h
  case store => exact storeByte_inv _ _ h
  case publish => exact publish_inv h
  case reset => exact resetEngine_inv h

theorem unscheduled_inv {s t : State} (h : s.Inv) (ht : unscheduled s = .next t) : t.Inv := by
  unfold unscheduled at ht
  split at ht
  · cases ht; exact runJob_inv h
  · exact hostLine_inv h ht

/-- Settles O60: each move of an agent keeps the invariant, and taking it off the schedule does not touch it. -/
theorem invariantKeptByStep : Obligations.InvariantKeptByStep := by
  intro s t h ht
  unfold step at ht
  split at ht
  · exact unscheduled_inv h ht
  · refine perform_inv ?_ ht
    exact h.of_outside rfl

/-- Settles O59: nothing runs and nothing is stored at reset. -/
theorem invariantAtReset : Obligations.InvariantAtReset :=
  ⟨State.reset_mem_wf, List.Pairwise.nil, rfl, rfl, fun _ hj => (Option.some_ne_none _ hj.symm).elim, rfl⟩

end Sys2Proof.Machine
end

section
/-! The register window: the register at each offset, what a host read returns, what an idle host write stores. -/

namespace Sys2Proof.Machine

/-! ### The register at an offset -/

/-- Above `ERRADDR` lie the reserved offsets, and from 0x800 on the ROM's entries, half by half (rules R32, R45). -/
theorem regAt_of_ge {o : Nat} (h : 12 ≤ o / 8) :
    regAt o = if o < 0x800 then .reserved
      else if (o / 8) % 2 = 0 then .mtLo ((o - 0x800) / 16) else .mtHi ((o - 0x800) / 16) := by
  obtain ⟨m, hm⟩ := Nat.exists_eq_add_of_le' h
  simp only [regAt, hm]

theorem regAt_reserved {o : Nat} (hlo : 0x060 ≤ o) (hhi : o < 0x800) : regAt o = .reserved := by
  rw [regAt_of_ge (by omega), if_pos hhi]

theorem regAt_mtLo (k : Nat) : regAt (0x800 + 16 * k) = .mtLo k := by
  rw [regAt_of_ge (by omega), if_neg (by omega), if_pos (by omega)]
  congr 1
  omega

theorem regAt_mtHi (k : Nat) : regAt (0x808 + 16 * k) = .mtHi k := by
  rw [regAt_of_ge (by omega), if_neg (by omega), if_neg (by omega)]
  congr 1
  omega

/-- The upper half of a register's 8 bytes names the same register. -/
theorem regAt_add_four {o : Nat} (h : o % 8 = 0) : regAt (o + 4) = regAt o := by
  have hdiv : (o + 4) / 8 = o / 8 := by omega
  by_cases hge : 12 ≤ o / 8
  · rw [regAt_of_ge hge, regAt_of_ge (by omega), hdiv]
    have hlt : o + 4 < 0x800 ↔ o < 0x800 := by omega
    have hentry : (o + 4 - 0x800) / 16 = (o - 0x800) / 16 := by omega
    simp only [hlt, hentry]
  · obtain ⟨q, rfl⟩ : ∃ q, o = 8 * q := ⟨o / 8, by omega⟩
    have hq : q < 12 := by omega
    interval_cases q <;> rfl

/-- `CAPS` and the offsets from `ERRADDR` on are read-only or reserved: a write changes nothing (rules R83, R85). -/
theorem regAt_readOnly {o : Nat} (h : o < 8 ∨ 0x058 ≤ o) :
    (regAt o).isOperand = false ∧ ∀ s v mask, regWrite s v mask (regAt o) = s := by
  have hcases : o / 8 = 0 ∨ o / 8 = 11 ∨ 12 ≤ o / 8 := by omega
  rcases hcases with h0 | h11 | hge
  · simp [regAt, h0, Reg.isOperand, regWrite]
  · simp [regAt, h11, Reg.isOperand, regWrite]
  · rw [regAt_of_ge hge]
    split
    · exact ⟨rfl, fun _ _ _ => rfl⟩
    · split <;> exact ⟨rfl, fun _ _ _ => rfl⟩

/-! ### Halves of registers -/

theorem readPart_whole (o : Nat) (v : Word64) : readPart o 8 v = v := rfl

theorem readPart_zero (o width : Nat) : readPart o width 0 = 0 := by
  unfold readPart
  split_ifs <;> rfl

/-- The upper half of a zero-extended 32-bit value reads 0 (rule R83). -/
theorem readPart_high_narrow {o : Nat} (h : o % 8 = 0) (x : Word32) : readPart (o + 4) 4 (x.setWidth 64) = 0 := by
  have hhigh : ¬ (o + 4) % 8 = 0 := by omega
  rw [readPart, if_neg (by decide), if_neg hhigh]
  ext i
  simp

/-- A write of a register's whole or of its lower half stores its low 32 bits. -/
theorem writePart_low {o width : Nat} (h : o % 8 = 0) (old v : Word64) :
    (writePart o width old v).setWidth 32 = v.setWidth 32 := by
  unfold writePart
  rw [if_pos h]
  split
  · rfl
  · rw [BitVec.setWidth_append_eq_right, BitVec.setWidth_eq_extractLsb' (by decide)]

/-- A write of its upper half leaves a 32-bit register's value. -/
theorem writePart_high_narrow {o : Nat} (h : o % 8 = 0) (x : Word32) (v : Word64) :
    (writePart (o + 4) 4 (x.setWidth 64) v).setWidth 32 = x := by
  have hhigh : ¬ (o + 4) % 8 = 0 := by omega
  rw [writePart, if_neg (by decide), if_neg hhigh, BitVec.setWidth_append_eq_right,
    BitVec.extractLsb'_setWidth_of_le (by decide), ← BitVec.setWidth_eq_extractLsb' (by decide), BitVec.setWidth_eq]

/-- The lower half written, then the upper. -/
theorem writePart_low_high {o : Nat} (h : o % 8 = 0) (old lo hi : Word64) :
    writePart (o + 4) 4 (writePart o 4 old lo) hi = hi.extractLsb' 0 32 ++ lo.extractLsb' 0 32 := by
  have hhigh : ¬ (o + 4) % 8 = 0 := by omega
  simp only [writePart, h, hhigh, if_true, if_false, Nat.reduceEqDiff, BitVec.extractLsb'_append_eq_right]

/-- The upper half written, then the lower. -/
theorem writePart_high_low {o : Nat} (h : o % 8 = 0) (old lo hi : Word64) :
    writePart o 4 (writePart (o + 4) 4 old hi) lo = hi.extractLsb' 0 32 ++ lo.extractLsb' 0 32 := by
  have hhigh : ¬ (o + 4) % 8 = 0 := by omega
  simp only [writePart, h, hhigh, if_true, if_false, Nat.reduceEqDiff, BitVec.extractLsb'_append_eq_left]

/-! ### Host reads -/

/-- A 32-bit register's value is a 32-bit value, zero-extended. -/
theorem regValue_narrow {r : Reg} (hn : r.isNarrow = true) (s : State) : ∃ x : Word32, regValue s r = x.setWidth 64 := by
  cases r <;> simp only [Reg.isNarrow, Bool.false_eq_true] at hn <;> exact ⟨_, rfl⟩

/-- The registers no job writes, and every register while none runs, read exactly (rule R51). -/
theorem windowRead_exact {s : State} {o : Nat} (width : Nat)
    (h : s.status.busy = false ∨ (regAt o).unsettledWhileBusy = false) :
    windowRead o width s = { s with resp := .value (readPart o width (regValue s (regAt o))) } := by
  have hand : (s.status.busy && (regAt o).unsettledWhileBusy) = false := Bool.and_eq_false_iff.2 h
  simp [windowRead, hand]

/-- The others read as the next free value (rule R51). -/
theorem windowRead_free {s : State} {o : Nat} (width : Nat) (hb : s.status.busy = true)
    (hr : (regAt o).unsettledWhileBusy = true) :
    windowRead o width s = { s.spend 1 with resp := .value (readPart o width ((regAt o).anyValue s.drawn)) } := by
  simp [windowRead, hb, hr]

/-- A register's value in each of the accesses of rule R82, at any time or while no job runs. -/
theorem State.readsAs_of_reg {s : State} {o : Nat} {r : Reg} {v : Word64} (ho : o < 4096) (h8 : o % 8 = 0)
    (hr : regAt o = r) (hv : regValue s r = v) (h : s.status.busy = false ∨ r.unsettledWhileBusy = false) :
    s.readsAs o v := by
  subst hr hv
  have hhigh : ¬ (o + 4) % 8 = 0 := by omega
  have hfour : regAt (o + 4) = regAt o := regAt_add_four h8
  refine ⟨?_, ?_, ?_⟩
  · rw [hostRead_window s ho (by simp [accessOk, h8]), windowRead_exact 8 h, readPart_whole]
  · rw [hostRead_window s ho (by simp [accessOk]; omega), windowRead_exact 4 h, readPart, if_neg (by decide), if_pos h8]
  · rw [hostRead_window s (by omega) (by simp [accessOk]; omega), windowRead_exact 4 (by rw [hfour]; exact h), hfour,
      readPart, if_neg (by decide), if_neg hhigh]

/-- `CAPS` reads its constant in every state (rule R33). -/
theorem State.readsAs_caps (s : State) : s.readsAs 0x000 capsValue :=
  State.readsAs_of_reg (by decide) rfl rfl rfl (.inr rfl)

/-- Both halves of a ROM entry read in every state (rule R45). -/
theorem State.readsAs_mtLo (s : State) {k : Nat} (h : k < 128) :
    s.readsAs (0x800 + 16 * k) ((romEntry k).extractLsb' 0 64) :=
  State.readsAs_of_reg (by omega) (by omega) (regAt_mtLo k) rfl (.inr rfl)

theorem State.readsAs_mtHi (s : State) {k : Nat} (h : k < 128) :
    s.readsAs (0x808 + 16 * k) ((romEntry k).extractLsb' 64 64) :=
  State.readsAs_of_reg (by omega) (by omega) (regAt_mtHi k) rfl (.inr rfl)

/-- `STATUS` reads in every state. -/
theorem State.readsAs_status (s : State) : s.readsAs 0x010 s.status.word :=
  State.readsAs_of_reg (by decide) rfl rfl rfl (.inr rfl)

/-- A host read of any width at any address sets the response and uses up free values, no more (rule R85). -/
theorem hostRead_frame (a : Word64) (width : Nat) (s : State) :
    { hostRead a width s with resp := s.resp, draws := s.draws } = s := by
  unfold hostRead windowRead
  split
  · rfl
  · split_ifs <;> rfl

/-- An 8-byte read, while a job runs, of a register that the job writes. -/
theorem hostRead_free {s : State} {o : Nat} (ho : o < 4096) (h8 : o % 8 = 0) (hb : s.status.busy = true)
    (hr : (regAt o).unsettledWhileBusy = true) :
    hostRead (s.windowAddr o) 8 s
      = { s with resp := .value ((regAt o).anyValue (Config.draw s.draws)), draws := s.draws + 1 } := by
  rw [hostRead_window s ho (by simp [accessOk, h8]), windowRead_free 8 hb hr, readPart_whole]
  rfl

/-- A 32-bit register reads as some 32-bit value, zero-extended, busy or idle (log 8). -/
theorem windowRead_narrow {s : State} {o : Nat} (width : Nat) (hr : (regAt o).isNarrow = true) :
    ∃ x : Word32, (windowRead o width s).resp = .value (readPart o width (x.setWidth 64)) := by
  unfold windowRead
  split
  · exact ⟨s.drawn.setWidth 32, by simp [Reg.anyValue, hr]⟩
  · obtain ⟨x, hx⟩ := regValue_narrow hr s
    exact ⟨x, by rw [hx]⟩

/-! ### Idle host writes -/

/-- A host write of a register while no job runs (rules R82, R83). -/
theorem hostWrite_idle {s : State} {o width : Nat} {r : Reg} (v : Word64) (hb : s.status.busy = false) (ho : o < 4096)
    (ok : accessOk o width = true) (hc : o ≠ 8) (hr : regAt o = r) :
    hostWrite (s.windowAddr o) width v s = .next
      (regWrite { s with resp := .done } (writePart o width (regValue s r) v) (writePart o width 0 v) r) := by
  subst hr
  rw [hostWrite_window s v ho ok hc, windowWrite, hb]
  rfl

theorem windowWrite_idle {s : State} {o : Nat} (width : Nat) (v : Word64) (hb : s.status.busy = false) :
    windowWrite o width v s
      = regWrite s (writePart o width (regValue s (regAt o)) v) (writePart o width 0 v) (regAt o) := by
  simp [windowWrite, hb]

/-- A write of a read-only or reserved register is ignored at any time (rules R83, R85). -/
theorem hostWrite_readOnly {s : State} {o width : Nat} (v : Word64) (ok : accessOk o width = true) (ho : o < 4096)
    (h : o < 8 ∨ 0x058 ≤ o) : hostWrite (s.windowAddr o) width v s = .next { s with resp := .done } := by
  obtain ⟨hoperand, hignored⟩ := regAt_readOnly h
  rw [hostWrite_window s v ho ok (by omega), windowWrite, hoperand, Bool.and_false, if_neg (by decide), hignored]

/-- A 32-bit register stores the low 32 bits of what is written. -/
theorem regWrite_narrow {r : Reg} (hn : r.isNarrow = true) (s : State) {v w : Word64} (mask mask' : Word64)
    (h : v.setWidth 32 = w.setWidth 32) : regWrite s v mask r = regWrite s w mask' r := by
  cases r <;> simp only [Reg.isNarrow, Bool.false_eq_true] at hn <;> simp only [regWrite, h]

theorem regWrite_regValue_narrow {r : Reg} (hn : r.isNarrow = true) (s : State) (mask : Word64) :
    regWrite s (regValue s r) mask r = s := by
  cases r <;> simp only [Reg.isNarrow, Bool.false_eq_true] at hn <;> simp [regWrite, regValue]

/-- An idle write of a 32-bit register's whole or lower half stores the low 32 bits. -/
theorem hostWrite_narrow_low {s : State} {o width : Nat} {r : Reg} (v : Word64) (hb : s.status.busy = false)
    (ho : o < 4096) (h8 : o % 8 = 0) (hw : width ∈ [4, 8]) (hr : regAt o = r) (hn : r.isNarrow = true) :
    hostWrite (s.windowAddr o) width v s = .next (regWrite { s with resp := .done } v 0 r) := by
  have ok : accessOk o width = true := by
    have h4 : o % 4 = 0 := by omega
    rcases List.mem_pair.1 hw with rfl | rfl <;> simp [accessOk, h8, h4]
  have hc : o ≠ 8 := by
    rintro rfl
    exact absurd (hr ▸ hn) (by decide)
  rw [hostWrite_idle v hb ho ok hc hr, regWrite_narrow hn _ _ 0 (writePart_low h8 _ v)]

/-- An idle write of its upper half stores nothing. -/
theorem hostWrite_narrow_high {s : State} {o : Nat} {r : Reg} (v : Word64) (hb : s.status.busy = false)
    (ho : o < 4096) (h8 : o % 8 = 0) (hr : regAt o = r) (hn : r.isNarrow = true) :
    hostWrite (s.windowAddr (o + 4)) 4 v s = .next { s with resp := .done } := by
  obtain ⟨x, hx⟩ := regValue_narrow hn s
  have hkeep : (writePart (o + 4) 4 (regValue s r) v).setWidth 32 = (regValue s r).setWidth 32 := by
    rw [hx, writePart_high_narrow h8, BitVec.setWidth_setWidth_of_le _ (by decide), BitVec.setWidth_eq]
  rw [hostWrite_idle v hb (by omega) (by simp [accessOk]; omega) (by omega) ((regAt_add_four h8).trans hr),
    regWrite_narrow hn _ _ 0 hkeep]
  exact congrArg _ (regWrite_regValue_narrow hn { s with resp := .done } 0)

/-- The registers whose 64 bits are all stored: `DATA`, `ADDR`, `LEN`. -/
def Reg.isWide (r : Reg) : Prop := r = .data ∨ r = .addr ∨ r = .len

theorem regValue_regWrite {r : Reg} (h : r.isWide) (s : State) (v mask : Word64) :
    regValue (regWrite s v mask r) r = v := by
  rcases h with rfl | rfl | rfl <;> rfl

/-- The last of two writes of a register stands. -/
theorem regWrite_regWrite {r : Reg} (h : r.isWide) (s : State) (u v m n k : Word64) :
    regWrite (regWrite s u m r) v n r = regWrite s v k r := by
  rcases h with rfl | rfl | rfl <;> rfl

theorem regWrite_busy {r : Reg} (h : r.isWide) (s : State) (v mask : Word64) :
    (regWrite s v mask r).status.busy = s.status.busy := by
  rcases h with rfl | rfl | rfl <;> rfl

/-! ### `STATUS` -/

/-- The bits of `STATUS` as a host reads them (rule R35). -/
theorem Status.word_bits (t : Status) :
    t.word.getLsbD 0 = t.busy ∧ t.word.getLsbD 1 = t.done ∧ t.word.getLsbD 2 = t.err ∧ t.word.getLsbD 3 = t.drop := by
  simp only [Status.word, flagBit, BitVec.getLsbD_append, BitVec.getLsbD_ofBool]
  simp

/-- Above its four flag bits `STATUS` holds `ERRCODE` between reserved bits. -/
theorem Status.word_extract (t : Status) {start : Nat} (len : Nat) (h : 4 ≤ start) :
    t.word.extractLsb' start len = ((0#52 ++ t.errcode.code) ++ 0#4).extractLsb' (start - 4) len := by
  unfold Status.word
  iterate 4 rw [BitVec.extractLsb'_append_eq_of_le (by omega)]
  rfl

theorem Status.word_errcode (t : Status) : t.word.extractLsb' 8 4 = t.errcode.code := by
  rw [t.word_extract 4 (by decide), BitVec.extractLsb'_append_eq_of_le (by decide), BitVec.extractLsb'_append_eq_right]

theorem Status.word_reserved (t : Status) : t.word.extractLsb' 4 4 = 0 ∧ t.word.extractLsb' 12 52 = 0 := by
  rw [t.word_extract 4 (by decide), t.word_extract 52 (by decide), BitVec.extractLsb'_append_eq_right,
    BitVec.extractLsb'_append_eq_of_le (by decide), BitVec.extractLsb'_append_eq_left]
  exact ⟨rfl, rfl⟩

end Sys2Proof.Machine
end
section
/-! The statements about host reads and idle host writes. -/

namespace Sys2Proof.Machine

/-- Settles O57: each register by its offset. -/
theorem exactHostReads : Obligations.ExactHostReads := by
  intro s
  refine ⟨?always, fun k hk => ⟨s.readsAs_mtLo hk, s.readsAs_mtHi hk⟩, fun o hlo hhi h8 => ?reserved, fun hb => ?idle,
    fun hb => ⟨fun o ho => ?wide, fun o ho => ?narrow⟩⟩
  case always =>
    have hcaps : capsValue = 0x0000000001048008#64 := by decide
    exact ⟨hcaps ▸ s.readsAs_caps, State.readsAs_of_reg (by decide) rfl rfl rfl (.inr rfl), s.readsAs_status,
      State.readsAs_of_reg (by decide) rfl rfl rfl (.inr rfl), State.readsAs_of_reg (by decide) rfl rfl rfl (.inr rfl),
      State.readsAs_of_reg (by decide) rfl rfl rfl (.inr rfl)⟩
  case reserved => exact State.readsAs_of_reg (by omega) h8 (regAt_reserved hlo hhi) rfl (.inr rfl)
  case idle =>
    refine ⟨?_, ?_, ?_, ?_, ?_, ?_⟩ <;> exact State.readsAs_of_reg (by decide) rfl rfl rfl (.inl hb)
  case wide =>
    obtain rfl | rfl : o = 0x030 ∨ o = 0x038 := by simpa using ho
    all_goals exact hostRead_free (by decide) rfl hb rfl
  case narrow =>
    obtain rfl | rfl | rfl | rfl : o = 0x020 ∨ o = 0x040 ∨ o = 0x048 ∨ o = 0x050 := by simpa using ho
    all_goals exact hostRead_free (by decide) rfl hb rfl

/-- Settles O47: the reset values, and the two constants as every state reads them. -/
theorem resetValues : Obligations.ResetValues := by
  have hcaps : capsValue = 0x0000000001048008#64 := by decide
  have hstatus : State.reset.status.word = 0 := by decide
  exact ⟨hcaps, hstatus, rfl, rfl, rfl, rfl, rfl, rfl, rfl, rfl, rfl, rfl, rfl, (State.readsAs_caps _).1,
    fun _ hk => ⟨(State.readsAs_mtLo _ hk).1, (State.readsAs_mtHi _ hk).1⟩⟩

/-- Settles O50: `STATUS` reads at any time, and its bits are its fields. -/
theorem statusReadsItsFields : Obligations.StatusReadsItsFields := by
  intro s
  obtain ⟨hbusy, hdone, herr, hdrop⟩ := s.status.word_bits
  have hnumbers : ∀ p ∈ [(FaultCode.none, 0#4), (.illegal, 1#4), (.bsize, 2#4), (.null, 3#4), (.range, 4#4),
      (.align, 5#4), (.bus, 6#4)], p.1.code = p.2 := by decide
  refine ⟨s.readsAs_status.1, hbusy, hdone, herr, hdrop, fun p hp hcode => ?_, s.status.word_reserved⟩
  rw [s.status.word_errcode, hcode, hnumbers p hp]

/-- Settles O54: `CMD` and the reserved offsets hold 0, and a read sets only the response. -/
theorem hostReadsHaveNoEffect : Obligations.HostReadsHaveNoEffect := by
  refine fun s width => ⟨fun o ok ho => ?_, fun a => ?_⟩
  · have hreg : regAt o = .cmd ∨ regAt o = .reserved := by
      rcases ho with ⟨hlo, hhi⟩ | ⟨hlo, hhi⟩
      · have hdiv : o / 8 = 1 := by omega
        exact .inl (by simp only [regAt, hdiv])
      · exact .inr (regAt_reserved hlo hhi)
    rw [hostRead_window s (by omega) ok]
    rcases hreg with hr | hr <;>
      rw [windowRead_exact width (.inr (by rw [hr]; rfl)), hr, regValue, readPart_zero]
  · exact hostRead_frame a width s

/-- The offsets of the three registers that store 64 bits. -/
theorem wide_offsets : ∀ o ∈ [0x028, 0x030, 0x038], (regAt o).isWide ∧ o % 8 = 0 := by
  unfold Reg.isWide
  decide

/-- Settles O52: `DATA`, `ADDR` and `LEN` store all their bits, and the last of two writes of a half stands. -/
theorem halfWritesCompose : Obligations.HalfWritesCompose := by
  refine fun s hb => ⟨fun v => ?_, fun o lo hi ho => ?_⟩
  · refine ⟨?_, ?_, ?_, ?_, ?_, ?_, ?_, ?_, ?_⟩ <;> exact hostWrite_idle v hb (by decide) rfl (by decide) rfl
  · obtain ⟨hr, h8⟩ := wide_offsets o ho
    have hfour : regAt (o + 4) = regAt o := regAt_add_four h8
    have hb' : ∀ u m, (regWrite s u m (regAt o)).status.busy = false := fun u m => (regWrite_busy hr s u m).trans hb
    have hhigh : ¬ (o + 4) % 8 = 0 := by omega
    simp only [windowWrite_idle, hb, hb', hfour, regValue_regWrite hr, writePart_low_high h8, writePart_high_low h8]
    refine ⟨regWrite_regWrite hr .., regWrite_regWrite hr .., ?_, ?_⟩
    · rw [windowRead_exact 8 (.inl (hb' _ _)), regValue_regWrite hr, readPart_whole]
      rfl
    · rw [windowRead_exact 4 (.inl (hb' _ _)), hfour, regValue_regWrite hr, readPart, if_neg (by decide), if_neg hhigh]
      rfl

/-- The offsets of the four 32-bit registers. -/
theorem narrow_offsets : ∀ o ∈ [0x020, 0x040, 0x048, 0x050], (regAt o).isNarrow = true ∧ o % 8 = 0 ∧ o < 4088 := by
  decide

/-- Settles O53: a 32-bit register stores the low half of what is written and reads 0 above it. -/
theorem narrowAndReadOnlyRegisters : Obligations.NarrowAndReadOnlyRegisters := by
  refine fun s v => ⟨fun hb => ⟨fun width hw => ?low, fun o ho => ?high⟩, fun o ho => ?reads,
    fun o width ok ho => hostWrite_readOnly v ok (by omega) (by omega)⟩
  case low =>
    refine ⟨?_, ?_, ?_, ?_⟩ <;> exact hostWrite_narrow_low v hb (by decide) rfl hw rfl rfl
  case high =>
    obtain ⟨hn, h8, hlt⟩ := narrow_offsets o ho
    exact hostWrite_narrow_high v hb (by omega) h8 rfl hn
  case reads =>
    obtain ⟨hr, h8, hlt⟩ := narrow_offsets o ho
    constructor
    · obtain ⟨x, hx⟩ := windowRead_narrow (s := s) 4 (regAt_add_four h8 ▸ hr)
      rw [hostRead_window s (by omega) (by simp [accessOk]; omega), hx, readPart_high_narrow h8]
    · obtain ⟨x, hx⟩ := windowRead_narrow (s := s) 8 hr
      exact ⟨x, by rw [hostRead_window s (by omega) (by simp [accessOk, h8]), hx, readPart_whole]⟩

end Sys2Proof.Machine
end

section
/-! What a command's body does to its working registers: where the cursor moves, and which registers it keeps. -/

namespace Sys2Proof.Machine

/-! ### The prologue -/

theorem unalignedCount_lt (a : Nat) : unalignedCount a < 8 := Nat.mod_lt _ (by decide)

/-- The prologue moves the cursor past the bytes it consumes (rules R160, R161). -/
theorem prologueBody_cursor (bytes : Bytes) (r : Run) :
    (prologueBody bytes r).addr = r.addr + prologueCount r.addr r.len
      ∧ (prologueBody bytes r).len = r.len - prologueCount r.addr r.len := by
  unfold prologueBody prologueCount
  split
  · next h =>
    have hzero : (if r.len < unalignedCount r.addr then 0 else unalignedCount r.addr) = 0 := by
      rcases h with h | h <;> simp [h]
    rw [hzero]
    exact ⟨rfl, rfl⟩
  · next h =>
    rw [if_neg fun hlt => h (.inr hlt)]
    have hlt := unalignedCount_lt r.addr
    generalize unalignedCount r.addr = u at *
    interval_cases u <;> simp [prologueStep, Nat.add_assoc, Nat.sub_sub]

theorem prologueCount_le (a l : Nat) : prologueCount a l ≤ l := by
  unfold prologueCount
  split <;> omega

/-- The prologue keeps the lane registers. -/
theorem prologueBody_lanes (bytes : Bytes) (r : Run) :
    (prologueBody bytes r).crc0 = r.crc0 ∧ (prologueBody bytes r).crc1 = r.crc1 ∧ (prologueBody bytes r).crc2 = r.crc2
      ∧ (prologueBody bytes r).engaged = r.engaged := by
  unfold prologueBody
  split
  · exact ⟨rfl, rfl, rfl, rfl⟩
  · simp only [List.foldl_cons, List.foldl_nil, prologueStep]
    split_ifs <;> exact ⟨rfl, rfl, rfl, rfl⟩

/-- The prologue of no byte does nothing. -/
theorem prologueBody_none (bytes : Bytes) {r : Run} (h : prologueCount r.addr r.len = 0) : prologueBody bytes r = r := by
  have hnone : unalignedCount r.addr = 0 ∨ r.len < unalignedCount r.addr := by
    unfold prologueCount at h
    split at h <;> tauto
  rw [prologueBody, if_pos hnone]

/-! ### Striping -/

theorem lane2Step_cursor (bytes : Bytes) (a n i : Nat) (r : Run) :
    (lane2Step bytes a n i r).addr = r.addr ∧ (lane2Step bytes a n i r).len = r.len := by
  unfold lane2Step
  split <;> exact ⟨rfl, rfl⟩

/-- The lanes of a block leave the cursor where it is. -/
theorem stripeLanes_cursor (bytes : Bytes) (a n : Nat) (r : Run) :
    (stripeLanes bytes a n r).addr = r.addr ∧ (stripeLanes bytes a n r).len = r.len := by
  unfold stripeLanes
  induction List.range n generalizing r with
  | nil => exact ⟨rfl, rfl⟩
  | cons i l ih =>
    obtain ⟨haddr, hlen⟩ := ih (loopUnit bytes a n r i)
    obtain ⟨haddr', hlen'⟩ := lane2Step_cursor bytes a n i (lane1Step bytes a n i (lane0Step bytes a n i r))
    exact ⟨haddr.trans haddr', hlen.trans hlen'⟩

/-- A block moves the cursor past its bytes (rule R184). -/
theorem stripeBlock_cursor (bytes : Bytes) (n : Nat) (r : Run) :
    (stripeBlock bytes n r).addr = r.addr + 24 * n ∧ (stripeBlock bytes n r).len = r.len - 24 * n := by
  obtain ⟨-, hlen⟩ := stripeLanes_cursor bytes r.addr n r
  exact ⟨rfl, congrArg (· - 24 * n) hlen⟩

/-- The blocks of `loops` loop-units move the cursor past all of them (rules R182, R184). -/
theorem stripeLoop_cursor (bytes : Bytes) (fuel loops : Nat) (r : Run) (h : loops ≤ fuel) :
    (stripeLoop bytes fuel loops r).addr = r.addr + 24 * loops
      ∧ (stripeLoop bytes fuel loops r).len = r.len - 24 * loops := by
  induction fuel generalizing loops r with
  | zero =>
    obtain rfl : loops = 0 := by omega
    exact ⟨rfl, rfl⟩
  | succ fuel ih =>
    unfold stripeLoop
    split
    · next hz => subst hz; exact ⟨rfl, rfl⟩
    · obtain ⟨haddr, hlen⟩ := ih (loops - min loops 128) (stripeBlock bytes (min loops 128) r) (by omega)
      obtain ⟨haddr', hlen'⟩ := stripeBlock_cursor bytes (min loops 128) r
      rw [haddr, hlen, haddr', hlen']
      omega

/-- Striping moves the cursor past the bytes it consumes (rules R182, R183). -/
theorem stripeBody_cursor (bytes : Bytes) (r : Run) :
    (stripeBody bytes r).addr = r.addr + stripeCount r.len ∧ (stripeBody bytes r).len = r.len - stripeCount r.len := by
  unfold stripeBody stripeCount
  split
  · exact ⟨rfl, rfl⟩
  · exact stripeLoop_cursor bytes _ _ (stripeStart r) (le_refl _)

theorem stripeCount_le (l : Nat) : stripeCount l ≤ l := by
  unfold stripeCount
  split <;> omega

/-- Below the threshold striping does nothing (rule R183). -/
theorem stripeBody_below (bytes : Bytes) {r : Run} (h : r.len < 96) : stripeBody bytes r = r := by
  rw [stripeBody, if_pos h]

/-! ### The epilogue -/

/-- The word loop moves the cursor past its words (rule R230). -/
theorem wordLoop_cursor (bytes : Bytes) (k : Nat) (r : Run) :
    (wordLoop bytes k r).addr = r.addr + 8 * k ∧ (wordLoop bytes k r).len = r.len - 8 * k := by
  induction k generalizing r with
  | zero => exact ⟨rfl, rfl⟩
  | succ k ih =>
    obtain ⟨haddr, hlen⟩ := ih (r.consume bytes 8)
    rw [wordLoop, haddr, hlen, Run.consume_addr, Run.consume_len]
    omega

theorem wordLoop_lanes (bytes : Bytes) (k : Nat) (r : Run) :
    (wordLoop bytes k r).crc0 = r.crc0 ∧ (wordLoop bytes k r).crc1 = r.crc1 ∧ (wordLoop bytes k r).crc2 = r.crc2
      ∧ (wordLoop bytes k r).engaged = r.engaged := by
  induction k generalizing r with
  | zero => exact ⟨rfl, rfl, rfl, rfl⟩
  | succ k ih => exact ih (r.consume bytes 8)

/-- The tail moves the cursor to the buffer's end (rule R232). -/
theorem tailBody_cursor (bytes : Bytes) (r : Run) :
    (tailBody bytes r).addr = r.addr + r.len ∧ (tailBody bytes r).len = 0 := by
  unfold tailBody
  split
  · next h => exact ⟨by rw [h, Nat.add_zero], h⟩
  · exact ⟨rfl, rfl⟩

/-- The epilogue moves the cursor to the buffer's end (rule R233). -/
theorem epilogueBody_cursor (bytes : Bytes) (r : Run) :
    (epilogueBody bytes r).addr = r.addr + r.len ∧ (epilogueBody bytes r).len = 0 := by
  obtain ⟨haddr, hlen⟩ := wordLoop_cursor bytes (r.len / 8) r
  obtain ⟨haddr', hlen'⟩ := tailBody_cursor bytes (wordLoop bytes (r.len / 8) r)
  refine ⟨?_, hlen'⟩
  rw [epilogueBody, haddr', haddr, hlen]
  omega

theorem epilogueBody_lanes (bytes : Bytes) (r : Run) :
    (epilogueBody bytes r).crc0 = r.crc0 ∧ (epilogueBody bytes r).crc1 = r.crc1 ∧ (epilogueBody bytes r).crc2 = r.crc2
      ∧ (epilogueBody bytes r).engaged = r.engaged := by
  unfold epilogueBody tailBody
  split <;> exact wordLoop_lanes bytes _ r

/-- The epilogue of no byte does nothing. -/
theorem epilogueBody_none (bytes : Bytes) {r : Run} (h : r.len = 0) : epilogueBody bytes r = r := by
  simp [epilogueBody, h, wordLoop, tailBody]

/-! ### Every command -/

/-- COMPUTE moves the cursor to the buffer's end: its three parts consume all of it (rule R250). -/
theorem computeBody_cursor (bytes : Bytes) (r : Run) :
    (computeBody bytes r).addr = r.addr + r.len ∧ (computeBody bytes r).len = 0 := by
  obtain ⟨haddr, hlen⟩ := prologueBody_cursor bytes r
  obtain ⟨haddr', hlen'⟩ := stripeBody_cursor bytes (prologueBody bytes r)
  obtain ⟨haddr'', hlen''⟩ := epilogueBody_cursor bytes (stripeBody bytes (prologueBody bytes r))
  have hle := prologueCount_le r.addr r.len
  have hle' := stripeCount_le (prologueBody bytes r).len
  refine ⟨?_, hlen''⟩
  rw [computeBody, haddr'', haddr', hlen', haddr]
  omega

theorem consumedCount_le (i : Instr) (a l : Nat) : consumedCount i a l ≤ l := by
  cases i
  case nop | step1 | step2 | step4 | step8 | combine => exact Nat.zero_le l
  case prologue => exact prologueCount_le a l
  case stripe => exact stripeCount_le l
  case epilogue | compute => exact le_refl l

/-- Every command moves the cursor past the bytes it consumes (rule R89). -/
theorem jobBody_cursor (i : Instr) (bytes : Bytes) (r : Run) :
    (jobBody i bytes r).addr = r.addr + consumedCount i r.addr r.len
      ∧ (jobBody i bytes r).len = r.len - consumedCount i r.addr r.len := by
  cases i
  case nop | step1 | step2 | step4 | step8 | combine => exact ⟨rfl, rfl⟩
  case prologue => exact prologueBody_cursor bytes r
  case stripe => exact stripeBody_cursor bytes r
  case epilogue => simpa [jobBody, consumedCount] using epilogueBody_cursor bytes r
  case compute => simpa [jobBody, consumedCount] using computeBody_cursor bytes r

/-- A command that reads no memory makes no read. -/
theorem jobBody_reads {i : Instr} (h : readsMemory i = false) (bytes : Bytes) (r : Run) :
    (jobBody i bytes r).reads = r.reads := by
  cases i <;> simp only [readsMemory, Bool.true_eq_false] at h <;> rfl

/-- A memory command that consumes no byte does nothing. -/
theorem jobBody_none {i : Instr} (hm : readsMemory i = true) (bytes : Bytes) {r : Run}
    (h : consumedCount i r.addr r.len = 0) : jobBody i bytes r = r := by
  cases i <;> simp only [readsMemory, Bool.false_eq_true] at hm
  case prologue => exact prologueBody_none bytes h
  case stripe =>
    refine stripeBody_below bytes ?_
    simp only [consumedCount, stripeCount] at h
    split at h <;> omega
  case epilogue => exact epilogueBody_none bytes h
  case compute =>
    have hlen : r.len = 0 := h
    have hcount : prologueCount r.addr r.len = 0 := Nat.le_zero.1 (hlen ▸ prologueCount_le r.addr r.len)
    rw [jobBody, computeBody, prologueBody_none bytes hcount, stripeBody_below bytes (by omega),
      epilogueBody_none bytes hlen]

/-- The commands that do not write the lane registers keep them, and striping does not engage (rule R52). -/
theorem jobBody_lanes {i : Instr} (bytes : Bytes) {r : Run} (h : lanesWritten i r.addr r.len = false) :
    (jobBody i bytes r).crc0 = r.crc0 ∧ (jobBody i bytes r).crc1 = r.crc1 ∧ (jobBody i bytes r).crc2 = r.crc2
      ∧ (jobBody i bytes r).engaged = r.engaged := by
  cases i
  case nop | step1 | step2 | step4 | step8 => exact ⟨rfl, rfl, rfl, rfl⟩
  case combine => simp [lanesWritten] at h
  case prologue => exact prologueBody_lanes bytes r
  case stripe =>
    have hbelow : r.len < 96 := by simpa [lanesWritten] using h
    rw [jobBody, stripeBody_below bytes hbelow]
    exact ⟨rfl, rfl, rfl, rfl⟩
  case epilogue => exact epilogueBody_lanes bytes r
  case compute =>
    have hbelow : (prologueBody bytes r).len < 96 := by
      rw [(prologueBody_cursor bytes r).2]
      simpa [lanesWritten] using h
    obtain ⟨h0, h1, h2, he⟩ := epilogueBody_lanes bytes (prologueBody bytes r)
    obtain ⟨h0', h1', h2', he'⟩ := prologueBody_lanes bytes r
    rw [jobBody, computeBody, stripeBody_below bytes hbelow]
    exact ⟨h0.trans h0', h1.trans h1', h2.trans h2', he.trans he'⟩

/-- Settles O35: what the cursor gains, `LEN` loses. -/
theorem addrPlusLenIsKept : Obligations.AddrPlusLenIsKept := by
  intro i bytes r
  obtain ⟨haddr, hlen⟩ := jobBody_cursor i bytes r
  have hle := consumedCount_le i r.addr r.len
  omega

end Sys2Proof.Machine
end
section
/-! What a completed command leaves unchanged. -/

namespace Sys2Proof.Machine

/-- A job started by a ready engine has not ended: its status is the running one. -/
theorem State.started_status (s : State) (i : Instr) :
    (s.started i).status = { s.status with busy := true, done := false } := rfl

/-- A ready engine's command that ends with `DONE = 1`, in its acceptance step or as its job runs on, ends by the
completion of its job. -/
theorem completed_eq_endJob {i : Instr} {s t : State} (hready : s.ready)
    (hend : exec i s = .next t ∨ commandCheck i s = none ∧ t = runJob (s.started i)) (hdone : t.status.done = true) :
    t = endJob (jobBody i) (startedJob i (jobBody i) s) (s.started i) := by
  obtain ⟨hbusy, herr⟩ := hready
  have hrun : t = settle (jobBody i) (startedJob i (jobBody i) s) (s.started i) := by
    rcases hend with hexec | ⟨-, rfl⟩
    · have hb : s.blocked = false := by simp [State.blocked, hbusy, herr]
      obtain rfl : onCommand i (commandCheck i) (jobBody i) s = t :=
        Host.Outcome.next.inj (exec_eq_onCommand i s ▸ hexec)
      cases hc : commandCheck i s with
      | some c => simp [onCommand_fault hb hc] at hdone
      | none =>
        cases he : s.eager && !readsMemory i with
        | false => simp [onCommand_deferred hb hc he] at hdone
        | true => exact onCommand_eager hb hc he
    · rfl
  rw [hrun] at hdone ⊢
  rcases settle_cases (jobBody i) (startedJob i (jobBody i) s) (s.started i) with
    ⟨out, n, heq, -⟩ | ⟨a, n, heq, -⟩ | ⟨heq, -⟩
  · simp [heq, State.started_status] at hdone
  · simp [heq, busFault, State.started_status] at hdone
  · exact heq

/-- Of a job with no read no byte is unstable. -/
theorem startedJob_raced_of_reads {i : Instr} {s : State} (h : readPlan (jobBody i) s = []) :
    (startedJob i (jobBody i) s).raced = false := by
  simp [startedJob, h]

/-- A completion changes no register but the result registers and `STATUS`. -/
theorem endJob_frame (body : Body) (j : Job) (s : State) :
    s.sameSurroundings (endJob body j s) ∧ (endJob body j s).erraddr = s.erraddr := by
  unfold endJob
  simp only
  split <;> exact ⟨⟨rfl, rfl, rfl, rfl, rfl, rfl, rfl, rfl, rfl⟩, rfl⟩

/-- A completion of a job whose bytes were stable stores the command's results. -/
theorem endJob_stable {body : Body} {j : Job} {s : State} (h : j.raced = false) :
    endJob body j s = ((body (Memory.read s.mem) (Run.load s)).store s).complete := by
  simp [endJob, h]

/-- Storing the registers as they were loaded changes nothing. -/
theorem Run.store_load (s : State) : (Run.load s).store s = s := by
  simp [Run.store]

/-- A completion keeps the lane registers where the job's body does and striping did not engage, raced or not. -/
theorem endJob_lanes {body : Body} (j : Job) {s : State} {r : Run} (hr : body (Memory.read s.mem) (Run.load s) = r)
    (h : r.crc0 = s.crc0 ∧ r.crc1 = s.crc1 ∧ r.crc2 = s.crc2 ∧ r.engaged = false) :
    (endJob body j s).crc0 = s.crc0 ∧ (endJob body j s).crc1 = s.crc1 ∧ (endJob body j s).crc2 = s.crc2 := by
  obtain ⟨h0, h1, h2, he⟩ := h
  simp only [endJob, hr]
  split
  · simp [he]
  · exact ⟨h0, h1, h2⟩

theorem consumedCount_of_readsNoMemory {i : Instr} (h : readsMemory i = false) (a l : Nat) : consumedCount i a l = 0 := by
  cases i <;> simp only [readsMemory, Bool.true_eq_false] at h <;> rfl

/-- A completed command that does nothing to its working registers, and so reads nothing, changes `STATUS` alone. -/
theorem endJob_of_load {i : Instr} {s : State} (h : ∀ bytes, jobBody i bytes (Run.load s) = Run.load s) :
    endJob (jobBody i) (startedJob i (jobBody i) s) (s.started i) = (s.started i).complete := by
  have hreads : readPlan (jobBody i) s = [] := by rw [readPlan, h]; rfl
  have hload : Run.load (s.started i) = Run.load s := rfl
  rw [endJob_stable (startedJob_raced_of_reads hreads), hload, h, ← hload, Run.store_load]

/-- Settles O36: a completion stores its body's results, or free values where a byte read was not stable; each register
outside the command's row is one that the body keeps and no free value replaces. -/
theorem writeSets : Obligations.WriteSets := by
  intro i s t hready hend hdone
  obtain rfl := completed_eq_endJob hready hend hdone
  obtain ⟨hsame, herraddr⟩ := endJob_frame (jobBody i) (startedJob i (jobBody i) s) (s.started i)
  obtain ⟨-, -, hmem, -⟩ := id hsame
  refine ⟨hsame, herraddr, fun a => congrArg (Memory.read · a) hmem, ?nop, fun hm => ?noMemory,
    fun hm hnone => ?noByte, fun hl => ?lanes⟩
  case nop =>
    rintro rfl
    rw [endJob_of_load fun _ => rfl]
    rfl
  case noMemory =>
    have hreads : readPlan (jobBody i) s = [] := jobBody_reads hm _ (Run.load s)
    obtain ⟨haddr, hlen⟩ := jobBody_cursor i (Memory.read s.mem) (Run.load s)
    rw [consumedCount_of_readsNoMemory hm] at haddr hlen
    rw [endJob_stable (startedJob_raced_of_reads hreads)]
    exact ⟨(congrArg (BitVec.ofNat 64) haddr).trans (BitVec.ofNat_toNat ..),
      (congrArg (BitVec.ofNat 64) hlen).trans (BitVec.ofNat_toNat ..)⟩
  case noByte =>
    rw [endJob_of_load fun bytes => jobBody_none hm bytes hnone]
    exact ⟨rfl, rfl, rfl⟩
  case lanes =>
    exact endJob_lanes _ rfl (jobBody_lanes (Memory.read s.mem) (r := Run.load s) hl)

end Sys2Proof.Machine
end

section
/-! The polynomial view of rule R14: one round of the byte step multiplies by `x` and reduces mod `P`. -/

namespace Sys2Proof.Machine

open Polynomial

/-- Addition of reflected polynomials is `xor` of their bits. -/
theorem reflectedPoly_xor (n : Nat) (f g : Nat → Bool) :
    reflectedPoly n (fun i => f i ^^ g i) = reflectedPoly n f + reflectedPoly n g := by
  simp only [reflectedPoly, ← Finset.sum_add_distrib]
  refine Finset.sum_congr rfl fun i _ => ?_
  by_cases hf : f i = true <;> by_cases hg : g i = true <;> simp [hf, hg, CharTwo.add_self_eq_zero]

theorem poly32_xor (a b : Word32) : poly32 (a ^^^ b) = poly32 a + poly32 b := by
  simp only [poly32, ← reflectedPoly_xor]
  congr 1
  funext i
  exact BitVec.getLsbD_xor

/-- A reflected polynomial of `n` bits has degree below `n`. -/
theorem degree_reflectedPoly_lt (n : Nat) (f : Nat → Bool) : (reflectedPoly n f).degree < n := by
  rw [← mem_degreeLT]
  refine Submodule.sum_mem _ fun i hi => ?_
  have hi : i < n := Finset.mem_range.1 hi
  split
  · rw [mem_degreeLT, degree_X_pow]
    exact_mod_cast (by omega : n - 1 - i < n)
  · exact Submodule.zero_mem _

theorem degree_poly32_lt (c : Word32) : (poly32 c).degree < 32 := degree_reflectedPoly_lt 32 _

/-- The generator is `x^32` plus the polynomial of the reflected word of rule R140. -/
theorem crcGenerator_eq : crcGenerator = X ^ 32 + poly32 crcPoly := by
  simp [crcGenerator, poly32, reflectedPoly, crcPoly, Finset.sum_range_succ]
  ring

/-- The generator is monic of degree 32. -/
theorem crcGenerator_monic : crcGenerator.Monic := by
  rw [crcGenerator_eq]
  exact monic_X_pow_add (degree_poly32_lt _)

theorem degree_crcGenerator : crcGenerator.degree = 32 := by
  have hlt : (poly32 crcPoly).degree < ((X : (ZMod 2)[X]) ^ 32).degree := by
    rw [degree_X_pow]
    exact degree_poly32_lt _
  rw [crcGenerator_eq, degree_add_eq_left_of_degree_lt hlt, degree_X_pow]
  rfl

theorem degree_poly32_lt_crcGenerator (c : Word32) : (poly32 c).degree < crcGenerator.degree :=
  (degree_poly32_lt c).trans_eq degree_crcGenerator.symm

/-- Multiplication by `x` shifts a word right; the bit shifted out is the coefficient of `x^32`. -/
theorem poly32_mul_X (c : Word32) :
    poly32 c * X = poly32 (c >>> 1) + if c.getLsbD 0 then X ^ 32 else 0 := by
  have hsucc : ∀ i ∈ Finset.range 31, (if c.getLsbD (i + 1) then X ^ (31 - (i + 1)) else 0 : (ZMod 2)[X]) * X
      = if (c >>> 1).getLsbD i then X ^ (31 - i) else 0 := by
    intro i hi
    have hlt : i < 31 := Finset.mem_range.1 hi
    have hexp : 31 - (i + 1) + 1 = 31 - i := by omega
    rw [BitVec.getLsbD_ushiftRight, Nat.add_comm 1 i, ite_mul, zero_mul, ← pow_succ, hexp]
  have hlast : (c >>> 1).getLsbD 31 = false := by simp
  rw [poly32, poly32, reflectedPoly, reflectedPoly, Finset.sum_range_succ' _ 31, Finset.sum_range_succ _ 31, add_mul,
    Finset.sum_mul, Finset.sum_congr rfl hsucc, hlast]
  split <;> simp [← pow_succ]

/-- A factor may be reduced before the product is. -/
theorem modByMonic_mul_modByMonic (p q : (ZMod 2)[X]) :
    ((p %ₘ crcGenerator) * q) %ₘ crcGenerator = (p * q) %ₘ crcGenerator := by
  refine modByMonic_eq_of_dvd_sub crcGenerator_monic ⟨-(p /ₘ crcGenerator) * q, ?_⟩
  linear_combination q * modByMonic_add_div p crcGenerator

/-- A round of the byte step multiplies by `x` mod `P` (rule R140). -/
theorem poly32_crcBit (c : Word32) : poly32 (crcBit c) = (poly32 c * X) %ₘ crcGenerator := by
  have hquotient : poly32 (crcBit c) + crcGenerator * (if c.getLsbD 0 then 1 else 0) = poly32 c * X := by
    rw [poly32_mul_X, crcBit]
    split
    · rw [poly32_xor, crcGenerator_eq]
      linear_combination poly32 crcPoly * CharTwo.two_eq_zero (R := (ZMod 2)[X])
    · simp
  exact ((div_modByMonic_unique _ _ crcGenerator_monic ⟨hquotient, degree_poly32_lt_crcGenerator _⟩).2).symm

/-- `k` rounds multiply by `x^k` mod `P`. -/
theorem poly32_crcBit_iterate (k : Nat) (c : Word32) : poly32 (crcBit^[k] c) = (poly32 c * X ^ k) %ₘ crcGenerator := by
  induction k with
  | zero =>
    rw [Function.iterate_zero_apply, pow_zero, mul_one,
      (modByMonic_eq_self_iff crcGenerator_monic).2 (degree_poly32_lt_crcGenerator c)]
  | succ k ih =>
    rw [Function.iterate_succ_apply', poly32_crcBit, ih, modByMonic_mul_modByMonic, mul_assoc, ← pow_succ]

/-! ### The ROM -/

/-- The first row of the ROM's table: `x^95` and `x^31` mod `P`. -/
theorem romTable_zero :
    romTable.getD 0 (0, 0) = (crcBit^[95] 0x80000000#32, crcBit^[31] 0x80000000#32) := by
  decide +kernel

/-- Each later row is the one before times `x^128` and `x^64` mod `P`: the constants of rule R45, compared one by one. -/
theorem romTable_succ : ∀ i < 127,
    romTable.getD (i + 1) (0, 0)
      = (crcBit^[128] (romTable.getD i (0, 0)).1, crcBit^[64] (romTable.getD i (0, 0)).2) := by
  decide +kernel

/-- Bit 31 is the constant coefficient. -/
theorem poly32_one : poly32 0x80000000#32 = 1 := by
  simp [poly32, reflectedPoly, Finset.sum_range_succ]

/-- The powers of `x` that the rows hold (rule R45). -/
theorem poly32_romTable (i : Nat) (h : i < 128) :
    poly32 (romTable.getD i (0, 0)).1 = X ^ (128 * i + 95) %ₘ crcGenerator
      ∧ poly32 (romTable.getD i (0, 0)).2 = X ^ (64 * i + 31) %ₘ crcGenerator := by
  induction i with
  | zero => simp only [romTable_zero, poly32_crcBit_iterate, poly32_one, one_mul, and_self, Nat.mul_zero, Nat.zero_add]
  | succ i ih =>
    obtain ⟨h0, h1⟩ := ih (by omega)
    have he0 : 128 * (i + 1) + 95 = 128 * i + 95 + 128 := by omega
    have he1 : 64 * (i + 1) + 31 = 64 * i + 31 + 64 := by omega
    simp only [romTable_succ i (by omega), poly32_crcBit_iterate, h0, h1, modByMonic_mul_modByMonic, he0, he1, pow_add,
      and_self]

/-- An entry holds its row's two words, each below 32 zero bits (rule R45). -/
theorem romEntry_words (i : Nat) :
    (romEntry i).extractLsb' 0 32 = (romTable.getD i (0, 0)).1 ∧ (romEntry i).extractLsb' 32 32 = 0
      ∧ (romEntry i).extractLsb' 64 32 = (romTable.getD i (0, 0)).2 ∧ (romEntry i).extractLsb' 96 32 = 0 := by
  unfold romEntry
  generalize romTable.getD i (0, 0) = row
  refine ⟨?_, ?_, ?_, ?_⟩
  · rw [BitVec.extractLsb'_append_eq_right]
  · rw [BitVec.extractLsb'_append_eq_of_le (by decide), BitVec.extractLsb'_append_eq_right]
    rfl
  · iterate 2 rw [BitVec.extractLsb'_append_eq_of_le (by decide)]
    rw [BitVec.extractLsb'_append_eq_right]
  · iterate 2 rw [BitVec.extractLsb'_append_eq_of_le (by decide)]
    rw [BitVec.extractLsb'_append_eq_left]
    rfl

/-- Settles O17: the rows are powers of `x` by induction on the block size, and the host reads them in every state. -/
theorem multiplierRomFormula : Obligations.MultiplierRomFormula := by
  intro n h1 h128
  obtain ⟨i, rfl⟩ : ∃ i, n = i + 1 := ⟨n - 1, by omega⟩
  have hi : i < 128 := by omega
  have he0 : 128 * (i + 1) - 33 = 128 * i + 95 := by omega
  have he1 : 64 * (i + 1) - 33 = 64 * i + 31 := by omega
  obtain ⟨hlow, hlowZero, hhigh, hhighZero⟩ := romEntry_words i
  obtain ⟨hpoly0, hpoly1⟩ := poly32_romTable i hi
  rw [Nat.add_sub_cancel, he0, he1, hlow, hhigh]
  exact ⟨hpoly0, hpoly1, hlowZero, hhighZero, fun s => ⟨(s.readsAs_mtLo hi).1, (s.readsAs_mtHi hi).1⟩⟩

end Sys2Proof.Machine
end

section
/-! Which reads a command makes: a list of reads that only the operand registers decide. -/

namespace Sys2Proof.Machine

/-! ### Consecutive reads -/

/-- Reads of the given widths, one after the other from an address on. -/
def readsAt : Nat → List Nat → List BusRead
  | _, [] => []
  | a, w :: ws => ⟨a, w⟩ :: readsAt (a + w) ws

/-- `k` reads of whole words. -/
def wordReads (a k : Nat) : List BusRead := readsAt a (List.replicate k 8)

theorem readsAt_append (a : Nat) (vs ws : List Nat) :
    readsAt a (vs ++ ws) = readsAt a vs ++ readsAt (a + vs.sum) ws := by
  induction vs generalizing a with
  | nil => rfl
  | cons v vs ih => simp [readsAt, ih, Nat.add_assoc]

theorem readsAt_map_width (a : Nat) (ws : List Nat) : (readsAt a ws).map BusRead.width = ws := by
  induction ws generalizing a with
  | nil => rfl
  | cons w ws ih => simp [readsAt, ih]

theorem BusRead.bytes_eq_range' (r : BusRead) : r.bytes = List.range' r.addr r.width :=
  List.range'_eq_map_range.symm

/-- Consecutive reads read consecutive bytes (rule R11). -/
theorem readsAt_bytes (a : Nat) (ws : List Nat) : (readsAt a ws).flatMap BusRead.bytes = List.range' a ws.sum := by
  induction ws generalizing a with
  | nil => rfl
  | cons w ws ih =>
    rw [readsAt, List.flatMap_cons, ih, BusRead.bytes_eq_range', List.range'_append_1, List.sum_cons]

theorem wordReads_add (a j k : Nat) : wordReads a (j + k) = wordReads a j ++ wordReads (a + 8 * j) k := by
  rw [wordReads, List.replicate_add, readsAt_append, List.sum_replicate, smul_eq_mul, Nat.mul_comm j 8, wordReads, wordReads]

theorem wordReads_eq_map (a k : Nat) : wordReads a k = (List.range k).map fun i => ⟨a + 8 * i, 8⟩ := by
  induction k with
  | zero => rfl
  | succ k ih => rw [wordReads_add, ih, List.range_succ, List.map_append]; rfl

theorem wordReads_bytes (a k : Nat) : (wordReads a k).flatMap BusRead.bytes = List.range' a (8 * k) := by
  simp [wordReads, readsAt_bytes, Nat.mul_comm]

/-- Word reads are 8 bytes wide and keep the alignment of the first. -/
theorem mem_wordReads {a k : Nat} {r : BusRead} (h : r ∈ wordReads a k) : r.width = 8 ∧ r.addr % 8 = a % 8 := by
  rw [wordReads_eq_map] at h
  obtain ⟨i, -, rfl⟩ := List.mem_map.1 h
  exact ⟨rfl, by simp⟩

/-! ### The prologue and the tail -/

/-- The widths 4, 2, 1 whose bit is set in a count (rules R161, R231). -/
def tailWidths (n : Nat) : List Nat := [4, 2, 1].filter fun w => n &&& w ≠ 0

theorem tailWidths_sublist (n : Nat) : (tailWidths n).Sublist [4, 2, 1] := List.filter_sublist

theorem tailWidths_sum : ∀ n < 8, (tailWidths n).sum = n := by decide

theorem readsAt_tailWidths_width {a n : Nat} {r : BusRead} (h : r ∈ readsAt a (tailWidths n)) : r.width ≠ 8 := by
  have hw : r.width ∈ tailWidths n := readsAt_map_width a (tailWidths n) ▸ List.mem_map_of_mem h
  have hmem := (tailWidths_sublist n).subset hw
  simp only [List.mem_cons, List.not_mem_nil, or_false] at hmem
  omega

/-- The prologue's loop consumes by the widths whose bit is set (rule R161). -/
theorem foldl_prologueStep_reads (bytes : Bytes) (u : Nat) (ws : List Nat) (r : Run) :
    (ws.foldl (prologueStep bytes u) r).reads = r.reads ++ readsAt r.addr (ws.filter fun w => u &&& w ≠ 0) := by
  induction ws generalizing r with
  | nil => simp [readsAt]
  | cons w ws ih =>
    rw [List.foldl_cons, ih, prologueStep, List.filter_cons]
    by_cases h : u &&& w = 0 <;> simp [h, readsAt]

/-- So does the loop of `ReadTail` (rule R231). -/
theorem foldl_tailStep_reads (bytes : Bytes) (a n : Nat) (ws : List Nat) (t : TailRead) :
    (ws.foldl (tailStep bytes a n) t).reads
      = t.reads ++ readsAt (a + t.offset) (ws.filter fun w => n &&& w ≠ 0) := by
  induction ws generalizing t with
  | nil => simp [readsAt]
  | cons w ws ih =>
    rw [List.foldl_cons, ih, tailStep, List.filter_cons]
    by_cases h : n &&& w = 0 <;> simp [h, readsAt, Nat.add_assoc]

/-- The reads of the prologue of a buffer. -/
def prologueReads (a l : Nat) : List BusRead := readsAt a (tailWidths (prologueCount a l))

theorem prologueBody_reads (bytes : Bytes) (r : Run) :
    (prologueBody bytes r).reads = r.reads ++ prologueReads r.addr r.len := by
  by_cases h : unalignedCount r.addr = 0 ∨ r.len < unalignedCount r.addr
  · have hzero : prologueCount r.addr r.len = 0 := by
      unfold prologueCount
      split <;> omega
    rw [prologueBody_none bytes hzero, prologueReads, hzero]
    exact (List.append_nil _).symm
  · have hcount : prologueCount r.addr r.len = unalignedCount r.addr := if_neg fun hlt => h (.inr hlt)
    rw [prologueBody, if_neg h, foldl_prologueStep_reads, prologueReads, hcount, tailWidths]

theorem prologueCount_lt (a l : Nat) : prologueCount a l < 8 := by
  have := unalignedCount_lt a
  unfold prologueCount
  split <;> omega

theorem prologueReads_bytes (a l : Nat) :
    (prologueReads a l).flatMap BusRead.bytes = List.range' a (prologueCount a l) := by
  rw [prologueReads, readsAt_bytes, tailWidths_sum _ (prologueCount_lt a l)]

/-! ### The epilogue -/

/-- The reads of the epilogue of a buffer: its words, then its tail (rules R230, R231). -/
def epilogueReads (a l : Nat) : List BusRead := readsAt a (List.replicate (l / 8) 8 ++ tailWidths (l % 8))

theorem wordLoop_reads (bytes : Bytes) (k : Nat) (r : Run) :
    (wordLoop bytes k r).reads = r.reads ++ wordReads r.addr k := by
  induction k generalizing r with
  | zero => simp [wordLoop, wordReads, readsAt]
  | succ k ih => simp [wordLoop, ih, wordReads, List.replicate_succ, readsAt]

theorem tailBody_reads (bytes : Bytes) (r : Run) :
    (tailBody bytes r).reads = r.reads ++ readsAt r.addr (tailWidths r.len) := by
  unfold tailBody
  split
  · next h => rw [h]; exact (List.append_nil _).symm
  · exact congrArg (r.reads ++ ·) (foldl_tailStep_reads bytes r.addr r.len [4, 2, 1] _)

theorem epilogueBody_reads (bytes : Bytes) (r : Run) :
    (epilogueBody bytes r).reads = r.reads ++ epilogueReads r.addr r.len := by
  obtain ⟨haddr, hlen⟩ := wordLoop_cursor bytes (r.len / 8) r
  have hrest : r.len - 8 * (r.len / 8) = r.len % 8 := by omega
  rw [epilogueBody, tailBody_reads, wordLoop_reads, haddr, hlen, hrest, epilogueReads, readsAt_append, wordReads]
  simp [Nat.mul_comm]

theorem epilogueReads_eq (a l : Nat) :
    epilogueReads a l = wordReads a (l / 8) ++ readsAt (a + 8 * (l / 8)) (tailWidths (l % 8)) := by
  simp [epilogueReads, readsAt_append, wordReads, Nat.mul_comm]

theorem epilogueReads_bytes (a l : Nat) : (epilogueReads a l).flatMap BusRead.bytes = List.range' a l := by
  have hsum : 8 * (l / 8) + l % 8 = l := Nat.div_add_mod l 8
  rw [epilogueReads_eq, List.flatMap_append, wordReads_bytes, readsAt_bytes, tailWidths_sum _ (Nat.mod_lt _ (by decide)),
    List.range'_append_1, hsum]

/-! ### Striping -/

/-- The read of word `i` of lane `k` in a block of `n` loop-units (rule R180). -/
def laneRead (a n k i : Nat) : BusRead := ⟨laneAddr a n k i, 8⟩

/-- The reads of one loop-unit of a block (rule R184). -/
def unitReads (a n i : Nat) : List BusRead :=
  [laneRead a n 0 i, laneRead a n 1 i] ++ if i < n - 1 then [laneRead a n 2 i] else []

/-- The reads of a block of `n` loop-units, lane 2's last word last (rules R181, R184). -/
def blockReads (a n : Nat) : List BusRead := (List.range n).flatMap (unitReads a n) ++ [⟨a + 8 * (3 * n - 1), 8⟩]

/-- The reads of the blocks of `loops` loop-units (rules R182, R184). -/
def stripeLoopReads : Nat → Nat → Nat → List BusRead
  | 0, _, _ => []
  | fuel + 1, loops, a =>
    if loops = 0 then []
    else blockReads a (min loops 128) ++ stripeLoopReads fuel (loops - min loops 128) (a + 24 * min loops 128)

/-- The reads of striping: none below the threshold (rule R183). -/
def stripeReads (a l : Nat) : List BusRead := if l < 96 then [] else stripeLoopReads (l / 24) (l / 24) a

theorem loopUnit_reads (bytes : Bytes) (a n i : Nat) (r : Run) :
    (loopUnit bytes a n r i).reads = r.reads ++ unitReads a n i := by
  unfold loopUnit lane2Step unitReads
  split <;> simp [lane1Step, lane0Step, laneRead]

theorem stripeLanes_reads (bytes : Bytes) (a n : Nat) (r : Run) :
    (stripeLanes bytes a n r).reads = r.reads ++ (List.range n).flatMap (unitReads a n) := by
  unfold stripeLanes
  induction List.range n generalizing r with
  | nil => simp
  | cons i l ih => simp [ih, loopUnit_reads]

theorem stripeBlock_reads (bytes : Bytes) (n : Nat) (r : Run) :
    (stripeBlock bytes n r).reads = r.reads ++ blockReads r.addr n := by
  simp [stripeBlock, stripeMerge, stripeLanes_reads, blockReads]

theorem stripeLoop_reads (bytes : Bytes) (fuel loops : Nat) (r : Run) :
    (stripeLoop bytes fuel loops r).reads = r.reads ++ stripeLoopReads fuel loops r.addr := by
  induction fuel generalizing loops r with
  | zero => simp [stripeLoop, stripeLoopReads]
  | succ fuel ih =>
    unfold stripeLoop stripeLoopReads
    split
    · simp
    · rw [ih, stripeBlock_reads, (stripeBlock_cursor bytes _ r).1, List.append_assoc]

theorem stripeBody_reads (bytes : Bytes) (r : Run) :
    (stripeBody bytes r).reads = r.reads ++ stripeReads r.addr r.len := by
  unfold stripeBody stripeReads
  split
  · simp
  · exact stripeLoop_reads bytes _ _ (stripeStart r)

/-- Lane 2's held-back read completes the last loop-unit of its block (rule R181). -/
theorem blockReads_eq (a m : Nat) :
    blockReads a (m + 1) = (List.range (m + 1)).flatMap fun i =>
      laneRead a (m + 1) 0 i :: laneRead a (m + 1) 1 i :: [laneRead a (m + 1) 2 i] := by
  have hbefore : (List.range m).flatMap (unitReads a (m + 1)) = (List.range m).flatMap fun i =>
      laneRead a (m + 1) 0 i :: laneRead a (m + 1) 1 i :: [laneRead a (m + 1) 2 i] := by
    refine List.flatMap_congr fun i hi => ?_
    rw [unitReads, if_pos (by simpa using hi)]
    rfl
  have hheld : a + 8 * (3 * (m + 1) - 1) = laneAddr a (m + 1) 2 m := by
    unfold laneAddr
    omega
  simp [blockReads, List.range_succ, hbefore, unitReads, hheld, laneRead]

/-- A lane's words are consecutive (rule R180). -/
theorem wordReads_lane (a n k : Nat) : wordReads (a + 8 * (k * n)) n = (List.range n).map (laneRead a n k) := by
  rw [wordReads_eq_map]
  refine List.map_congr_left fun i _ => ?_
  rw [laneRead, laneAddr, Nat.mul_add, Nat.add_assoc]

/-- A block's words, lane by lane (rule R180). -/
theorem wordReads_lanes (a n : Nat) :
    wordReads a (3 * n) = (List.range n).map (laneRead a n 0)
      ++ ((List.range n).map (laneRead a n 1) ++ (List.range n).map (laneRead a n 2)) := by
  have hsplit : 3 * n = n + (n + n) := by omega
  have hlane2 : a + 8 * n + 8 * n = a + 8 * (2 * n) := by omega
  rw [← wordReads_lane, ← wordReads_lane, ← wordReads_lane, hsplit, wordReads_add, wordReads_add, hlane2, Nat.zero_mul,
    Nat.one_mul, Nat.mul_zero, Nat.add_zero]

/-- A block reads each of its words once (rules R180, R181). -/
theorem blockReads_perm (a : Nat) {n : Nat} (h : 0 < n) : (blockReads a n).Perm (wordReads a (3 * n)) := by
  obtain ⟨m, rfl⟩ := Nat.exists_eq_succ_of_ne_zero h.ne'
  rw [blockReads_eq, wordReads_lanes]
  refine .trans (List.map_append_flatMap_perm _ _ _).symm (.append_left _ ?_)
  refine .trans (List.map_append_flatMap_perm _ _ _).symm (.append_left _ ?_)
  rw [List.map_eq_flatMap]

theorem stripeLoopReads_perm {fuel loops : Nat} (h : loops ≤ fuel) (a : Nat) :
    (stripeLoopReads fuel loops a).Perm (wordReads a (3 * loops)) := by
  induction fuel generalizing loops a with
  | zero =>
    obtain rfl : loops = 0 := by omega
    exact .refl _
  | succ fuel ih =>
    unfold stripeLoopReads
    split
    · next hz => subst hz; exact .refl _
    · have hsplit : 3 * loops = 3 * min loops 128 + 3 * (loops - min loops 128) := by omega
      have haddr : a + 8 * (3 * min loops 128) = a + 24 * min loops 128 := by omega
      rw [hsplit, wordReads_add, haddr]
      exact (blockReads_perm a (by omega)).append (ih (by omega) _)

/-- Striping reads each word of the bytes it consumes once (rules R180 to R184). -/
theorem stripeReads_perm (a l : Nat) : (stripeReads a l).Perm (wordReads a (stripeCount l / 8)) := by
  unfold stripeReads stripeCount
  split
  · exact .refl _
  · have hwords : 24 * (l / 24) / 8 = 3 * (l / 24) := by omega
    rw [hwords]
    exact stripeLoopReads_perm (le_refl _) a

theorem stripeReads_bytes (a l : Nat) :
    ((stripeReads a l).flatMap BusRead.bytes).Perm (List.range' a (stripeCount l)) := by
  have hwhole : 8 * (stripeCount l / 8) = stripeCount l := by
    unfold stripeCount
    split <;> omega
  exact ((stripeReads_perm a l).flatMap_right BusRead.bytes).trans (.of_eq (by rw [wordReads_bytes, hwhole]))

/-! ### Every command -/

/-- The reads of COMPUTE: its parts', each from where the part before it leaves the cursor (rule R250). -/
def computeReads (a l : Nat) : List BusRead :=
  prologueReads a l
    ++ (stripeReads (a + prologueCount a l) (l - prologueCount a l)
      ++ epilogueReads (a + prologueCount a l + stripeCount (l - prologueCount a l))
        (l - prologueCount a l - stripeCount (l - prologueCount a l)))

/-- The reads of a command whose buffer is `l` bytes at `a`. -/
def commandReads : Instr → Nat → Nat → List BusRead
  | .nop, _, _ => []
  | .step1, _, _ => []
  | .step2, _, _ => []
  | .step4, _, _ => []
  | .step8, _, _ => []
  | .prologue, a, l => prologueReads a l
  | .stripe, a, l => stripeReads a l
  | .combine _, _, _ => []
  | .epilogue, a, l => epilogueReads a l
  | .compute, a, l => computeReads a l

theorem computeBody_reads (bytes : Bytes) (r : Run) :
    (computeBody bytes r).reads = r.reads ++ computeReads r.addr r.len := by
  obtain ⟨haddr, hlen⟩ := prologueBody_cursor bytes r
  obtain ⟨haddr', hlen'⟩ := stripeBody_cursor bytes (prologueBody bytes r)
  rw [computeBody, epilogueBody_reads, stripeBody_reads, prologueBody_reads, haddr', hlen', haddr, hlen, computeReads,
    List.append_assoc, List.append_assoc]

/-- A command's reads are a function of its buffer's address and length alone (rule R89). -/
theorem jobBody_reads_eq (i : Instr) (bytes : Bytes) (r : Run) :
    (jobBody i bytes r).reads = r.reads ++ commandReads i r.addr r.len := by
  cases i
  case nop | step1 | step2 | step4 | step8 | combine => exact (List.append_nil _).symm
  case prologue => exact prologueBody_reads bytes r
  case stripe => exact stripeBody_reads bytes r
  case epilogue => exact epilogueBody_reads bytes r
  case compute => exact computeBody_reads bytes r

theorem readPlan_eq (i : Instr) (s : State) : readPlan (jobBody i) s = commandReads i s.addr.toNat s.len.toNat :=
  jobBody_reads_eq i _ (Run.load s)

/-- A command that reads no memory has no read in its plan. -/
theorem readPlan_of_readsNoMemory {i : Instr} (h : readsMemory i = false) (s : State) : readPlan (jobBody i) s = [] :=
  jobBody_reads h _ (Run.load s)

/-- The three parts of COMPUTE read the three parts of its buffer (rule R250). -/
theorem computeReads_bytes (a l : Nat) : ((computeReads a l).flatMap BusRead.bytes).Perm (List.range' a l) := by
  have hle := prologueCount_le a l
  have hle' := stripeCount_le (l - prologueCount a l)
  have hwhole : prologueCount a l + (stripeCount (l - prologueCount a l)
      + (l - prologueCount a l - stripeCount (l - prologueCount a l))) = l := by omega
  have hparts := List.range'_append_1 (s := a) (m := prologueCount a l)
    (n := stripeCount (l - prologueCount a l) + (l - prologueCount a l - stripeCount (l - prologueCount a l)))
  rw [hwhole, ← List.range'_append_1] at hparts
  rw [← hparts, computeReads, List.flatMap_append, List.flatMap_append]
  exact (List.Perm.of_eq (prologueReads_bytes a l)).append
    ((stripeReads_bytes _ _).append (.of_eq (epilogueReads_bytes _ _)))

/-- The reads of a command read each byte it consumes once. -/
theorem commandReads_bytes (i : Instr) (a l : Nat) :
    ((commandReads i a l).flatMap BusRead.bytes).Perm (List.range' a (consumedCount i a l)) := by
  cases i
  case nop | step1 | step2 | step4 | step8 | combine => exact .refl _
  case prologue => exact .of_eq (prologueReads_bytes a l)
  case stripe => exact stripeReads_bytes a l
  case epilogue => exact .of_eq (epilogueReads_bytes a l)
  case compute => exact computeReads_bytes a l

/-- Settles O33: the reads are those the operand registers decide. -/
theorem readsDoNotDependOnData : Obligations.ReadsDoNotDependOnData := by
  intro i b b' r
  rw [jobBody_reads_eq, jobBody_reads_eq]

/-- Settles O30: the reads of each part of a command cover what the cursor moves over. -/
theorem readSetIsExact : Obligations.ReadSetIsExact := by
  intro i s _
  refine ⟨?bytes, fun b => ?count, fun hi b => ?whole⟩
  case bytes =>
    rw [readPlan_eq]
    exact commandReads_bytes i _ _
  case count =>
    rw [(jobBody_cursor i b (Run.load s)).2]
    exact Nat.sub_add_cancel (consumedCount_le i _ _)
  case whole =>
    rcases hi with rfl | rfl
    · exact (epilogueBody_cursor b (Run.load s)).2
    · exact (computeBody_cursor b (Run.load s)).2

/-! ### Alignment -/

/-- The prologue's bytes end at a word's start, but where the buffer ends before it (rules R160, R161). -/
theorem prologueCount_aligned (a l : Nat) : (a + prologueCount a l) % 8 = 0 ∨ l < 8 := by
  unfold prologueCount unalignedCount
  split <;> omega

/-- An 8-byte read of striping is as aligned as the buffer. -/
theorem stripeReads_aligned {a l : Nat} {r : BusRead} (ha : a % 8 = 0) (h : r ∈ stripeReads a l) : r.addr % 8 = 0 :=
  (mem_wordReads ((stripeReads_perm a l).mem_iff.1 h)).2.trans ha

theorem stripeReads_below {a l : Nat} (h : l < 96) : stripeReads a l = [] := if_pos h

/-- An 8-byte read of the epilogue is as aligned as the buffer, and a buffer below a word has none. -/
theorem epilogueReads_aligned {a l : Nat} {r : BusRead} (ha : a % 8 = 0 ∨ l < 8) (h : r ∈ epilogueReads a l)
    (h8 : r.width = 8) : r.addr % 8 = 0 := by
  rw [epilogueReads_eq, List.mem_append] at h
  rcases h with h | h
  · rcases ha with ha | hl
    · exact (mem_wordReads h).2.trans ha
    · rw [Nat.div_eq_of_lt hl] at h
      exact absurd h List.not_mem_nil
  · exact absurd h8 (readsAt_tailWidths_width h)

/-- COMPUTE's prologue makes no 8-byte read, and what follows it starts at a word or holds none (rule R251). -/
theorem computeReads_aligned {a l : Nat} {r : BusRead} (h : r ∈ computeReads a l) (h8 : r.width = 8) :
    r.addr % 8 = 0 := by
  unfold computeReads at h
  simp only [List.mem_append] at h
  have hstart := prologueCount_aligned a l
  rcases h with h | h | h
  · exact absurd h8 (readsAt_tailWidths_width h)
  · rcases hstart with ha | hl
    · exact stripeReads_aligned ha h
    · rw [stripeReads_below (by omega)] at h
      exact absurd h List.not_mem_nil
  · refine epilogueReads_aligned ?_ h h8
    unfold stripeCount
    split <;> omega

/-- A command that passes an alignment check has an aligned buffer (rule R305). -/
theorem aligned_of_checkAligned8 {s : State} (h : checkAligned8 s = none) : s.addr.toNat % 8 = 0 := by
  simpa [checkAligned8] using h

/-- Settles O31: the widths are those of each body's reads, and an aligned start keeps word reads aligned. -/
theorem readWidthsAndAlignment : Obligations.ReadWidthsAndAlignment := by
  intro s
  have hprologue : readPlan prologueBody s = prologueReads s.addr.toNat s.len.toNat := readPlan_eq .prologue s
  have hstripe : readPlan stripeBody s = stripeReads s.addr.toNat s.len.toNat := readPlan_eq .stripe s
  have hepilogue : readPlan epilogueBody s = epilogueReads s.addr.toNat s.len.toNat := readPlan_eq .epilogue s
  refine ⟨fun i hi => ?none, fun n => readPlan_eq (.combine n) s, ?prologue, fun r hr => ?stripe,
    ⟨tailWidths (s.len.toNat % 8), tailWidths_sublist _, ?epilogue⟩, fun i hi hc r hr h8 => ?aligned⟩
  case none =>
    have hm : readsMemory i = false := by
      revert i
      decide
    exact readPlan_of_readsNoMemory hm s
  case prologue =>
    rw [hprologue, prologueReads, readsAt_map_width]
    exact tailWidths_sublist _
  case stripe =>
    rw [hstripe] at hr
    exact (mem_wordReads ((stripeReads_perm _ _).mem_iff.1 hr)).1
  case epilogue =>
    rw [hepilogue, epilogueReads, readsAt_map_width]
  case aligned =>
    rw [readPlan_eq] at hr
    obtain rfl | rfl | rfl : i = .stripe ∨ i = .epilogue ∨ i = .compute := by simpa using hi
    · have halign : checkAligned8 s = none := (Option.or_eq_none_iff.1 hc).2
      exact stripeReads_aligned (aligned_of_checkAligned8 halign) hr
    · have halign : (if 8 ≤ s.len.toNat then checkAligned8 s else none) = none := (Option.or_eq_none_iff.1 hc).2
      refine epilogueReads_aligned ?_ hr h8
      split at halign
      · exact .inl (aligned_of_checkAligned8 halign)
      · next h => exact .inr (not_le.1 h)
    · exact computeReads_aligned hr h8

end Sys2Proof.Machine
end
section
/-! What a command's result depends on: of memory, the bytes of its reads and no other (rule R97). -/

namespace Sys2Proof.Machine

/-- Two memories hold the same bytes wherever the reads read. -/
def agreeOn (b b' : Bytes) (rs : List BusRead) : Prop := ∀ q ∈ rs, ∀ a ∈ q.bytes, b a = b' a

theorem agreeOn.mono {b b' : Bytes} {rs rs' : List BusRead} (h : agreeOn b b' rs') (hsub : rs ⊆ rs') :
    agreeOn b b' rs := fun q hq => h q (hsub hq)

/-- A computation from `x` on memory keeps the reads made so far, and its result is a function of the bytes of its
reads. -/
structure DependsOnReads {α : Type} (reads : α → List BusRead) (x : α) (f : Bytes → α) : Prop where
  keeps : ∀ b, reads x ⊆ reads (f b)
  congr : ∀ b b', agreeOn b b' (reads (f b)) → f b = f b'

section
variable {α : Type} {reads : α → List BusRead}

/-- A computation that reads no memory. -/
theorem DependsOnReads.const {x y : α} (h : reads x ⊆ reads y) : DependsOnReads reads x fun _ => y :=
  ⟨fun _ => h, fun _ _ _ => rfl⟩

/-- One computation after another: what the second reads it adds to the first's reads. -/
theorem DependsOnReads.comp {x : α} {f : Bytes → α} {g : Bytes → α → α} (hf : DependsOnReads reads x f)
    (hg : ∀ y, DependsOnReads reads y (g · y)) : DependsOnReads reads x fun b => g b (f b) where
  keeps b := List.Subset.trans (hf.keeps b) ((hg (f b)).keeps b)
  congr b b' h := by
    have hfirst : f b = f b' := hf.congr b b' (h.mono ((hg (f b)).keeps b))
    rw [← hfirst]
    exact (hg (f b)).congr b b' h

/-- A loop of such computations. -/
theorem DependsOnReads.foldl {β : Type} {step : Bytes → α → β → α}
    (h : ∀ i y, DependsOnReads reads y (step · y i)) (l : List β) (x : α) :
    DependsOnReads reads x fun b => l.foldl (step b) x := by
  induction l generalizing x with
  | nil => exact .const (List.Subset.refl _)
  | cons i l ih => exact (h i x).comp (g := fun b y => l.foldl (step b) y) ih

/-- The value of a read depends on the bytes it reads (rule R87). -/
theorem readLE_congr {b b' : Bytes} {a n : Nat} (h : agreeOn b b' [⟨a, n⟩]) : readLE b a n = readLE b' a n := by
  have hbytes : ∀ k < n, b (a + k) = b' (a + k) := fun k hk =>
    h _ (List.mem_singleton_self _) _ (List.mem_map_of_mem (List.mem_range.2 hk))
  clear h
  induction n generalizing a with
  | zero => rfl
  | succ n ih =>
    have hrest : readLE b (a + 1) n = readLE b' (a + 1) n :=
      ih fun k hk => by simpa [Nat.add_assoc, Nat.add_comm 1] using hbytes (k + 1) (by omega)
    have hfirst : b a = b' a := hbytes 0 (Nat.succ_pos n)
    rw [readLE, readLE, hfirst, hrest]

/-- A computation on the value of one read that it records. -/
theorem DependsOnReads.read {x : α} {a n : Nat} (k : Word64 → α) (h : ∀ w, reads (k w) = reads x ++ [⟨a, n⟩]) :
    DependsOnReads reads x fun b => k (readLE b a n) where
  keeps b := by
    rw [h]
    exact List.subset_append_left _ _
  congr b b' hb := by
    have hvalue : readLE b a n = readLE b' a n := readLE_congr (hb.mono (by rw [h]; exact List.subset_append_right _ _))
    simp only [hvalue]

end

/-! ### The commands' parts -/

theorem consume_dependsOnReads (n : Nat) (r : Run) : DependsOnReads Run.reads r fun b => r.consume b n :=
  .read (fun w => { r.log r.addr n with acc := stepBytes r.acc w n, addr := r.addr + n, len := r.len - n }) fun _ => rfl

theorem prologueBody_dependsOnReads (r : Run) : DependsOnReads Run.reads r fun b => prologueBody b r := by
  unfold prologueBody
  split
  · exact .const (List.Subset.refl _)
  · refine .foldl (fun width y => ?_) _ _
    unfold prologueStep
    split
    · exact consume_dependsOnReads width y
    · exact .const (List.Subset.refl _)

theorem loopUnit_dependsOnReads (a n i : Nat) (r : Run) : DependsOnReads Run.reads r fun b => loopUnit b a n r i := by
  have hlane0 : DependsOnReads Run.reads r fun b => lane0Step b a n i r :=
    .read (fun w => { r.log (laneAddr a n 0 i) 8 with crc0 := stepBytes r.crc0 w 8 }) fun _ => rfl
  have hlane1 : ∀ y, DependsOnReads Run.reads y fun b => lane1Step b a n i y := fun y =>
    .read (fun w => { y.log (laneAddr a n 1 i) 8 with crc1 := stepBytes y.crc1 w 8 }) fun _ => rfl
  have hlane2 : ∀ y, DependsOnReads Run.reads y fun b => lane2Step b a n i y := by
    intro y
    unfold lane2Step
    split
    · refine .read (fun w => { y.log (laneAddr a n 2 i) 8 with crc2 := stepBytes y.crc2 w 8 }) fun _ => ?_
      rfl
    · exact .const (List.Subset.refl _)
  exact (hlane0.comp hlane1).comp hlane2

theorem stripeBlock_dependsOnReads (n : Nat) (r : Run) : DependsOnReads Run.reads r fun b => stripeBlock b n r := by
  have hlanes : DependsOnReads Run.reads r fun b => stripeLanes b r.addr n r :=
    .foldl (fun i y => loopUnit_dependsOnReads r.addr n i y) _ r
  refine hlanes.comp (g := fun b y => stripeMerge b r.addr n y) fun y => ?_
  refine .read (fun w => { (y.log (r.addr + 8 * (3 * n - 1)) 8).merge (combine y.crc0 y.crc1 y.crc2 w n) with
    addr := r.addr + 24 * n, len := y.len - 24 * n }) fun _ => ?_
  rfl

theorem stripeLoop_dependsOnReads (fuel loops : Nat) (r : Run) :
    DependsOnReads Run.reads r fun b => stripeLoop b fuel loops r := by
  induction fuel generalizing loops r with
  | zero => exact .const (List.Subset.refl _)
  | succ fuel ih =>
    unfold stripeLoop
    split
    · exact .const (List.Subset.refl _)
    · exact (stripeBlock_dependsOnReads _ r).comp (ih _)

theorem stripeBody_dependsOnReads (r : Run) : DependsOnReads Run.reads r fun b => stripeBody b r := by
  unfold stripeBody
  split
  · exact .const (List.Subset.refl _)
  · have hstart : DependsOnReads Run.reads r fun _ => stripeStart r := .const (List.Subset.refl _)
    exact (hstart.comp (stripeLoop_dependsOnReads _ _)).comp (g := fun _ e => { e with acc := e.crc0 })
      fun e => .const (y := { e with acc := e.crc0 }) (List.Subset.refl e.reads)

theorem wordLoop_dependsOnReads (k : Nat) (r : Run) : DependsOnReads Run.reads r fun b => wordLoop b k r := by
  induction k generalizing r with
  | zero => exact .const (List.Subset.refl _)
  | succ k ih => exact (consume_dependsOnReads 8 r).comp ih

theorem tailReads_dependsOnReads (a n : Nat) :
    DependsOnReads TailRead.reads { word := 0#64, offset := 0, reads := [] } fun b => tailReads b a n := by
  refine .foldl (step := fun b => tailStep b a n) (fun width t => ?_) _ _
  unfold tailStep
  split
  · refine .read (fun w => TailRead.mk (t.word ||| w <<< (8 * t.offset)) (t.offset + width)
      (t.reads ++ [⟨a + t.offset, width⟩])) fun _ => ?_
    rfl
  · exact .const (List.Subset.refl _)

theorem tailBody_dependsOnReads (r : Run) : DependsOnReads Run.reads r fun b => tailBody b r := by
  unfold tailBody
  split
  · exact .const (List.Subset.refl _)
  · refine ⟨fun b => List.subset_append_left _ _, fun b b' h => ?_⟩
    have htail : tailReads b r.addr r.len = tailReads b' r.addr r.len :=
      (tailReads_dependsOnReads r.addr r.len).congr b b' (h.mono (List.subset_append_right _ _))
    simp only [readTail, htail]

theorem epilogueBody_dependsOnReads (r : Run) : DependsOnReads Run.reads r fun b => epilogueBody b r :=
  (wordLoop_dependsOnReads (r.len / 8) r).comp tailBody_dependsOnReads

theorem jobBody_dependsOnReads (i : Instr) (r : Run) : DependsOnReads Run.reads r fun b => jobBody i b r := by
  cases i
  case nop | step1 | step2 | step4 | step8 | combine => exact .const (List.Subset.refl _)
  case prologue => exact prologueBody_dependsOnReads r
  case stripe => exact stripeBody_dependsOnReads r
  case epilogue => exact epilogueBody_dependsOnReads r
  case compute =>
    exact ((prologueBody_dependsOnReads r).comp stripeBody_dependsOnReads).comp epilogueBody_dependsOnReads

/-- Settles O34: each part of a command adds its reads and depends on their bytes alone. -/
theorem resultDependsOnBytesReadOnly : Obligations.ResultDependsOnBytesReadOnly :=
  fun i b b' r h => (jobBody_dependsOnReads i r).congr b b' h

end Sys2Proof.Machine
end
section
/-! The single moves of a running job: a read issued, a read answered, the job's end (rules R95, R306, R308, R309). -/

namespace Sys2Proof.Machine

/-! ### What each move answers -/

section
variable {s : State} {j : Job}

/-- The job's end waits for the reads that were issued. -/
theorem finishJob_outstanding (hj : s.job = some j) (ho : j.out ≠ []) : finishJob s = s := by
  simp [finishJob, hj, ho]

/-- A completion waits for the reads left to issue. -/
theorem finishJob_unissued (hj : s.job = some j) (hf : j.failed = none) (ht : j.todo ≠ []) : finishJob s = s := by
  simp [finishJob, hj, hf, ht]

theorem finishJob_failed {a : Nat} (hj : s.job = some j) (hf : j.failed = some a) (ho : j.out = []) :
    finishJob s = busFault j.cmd a s := by
  simp [finishJob, hj, hf, ho]

theorem finishJob_answered (hj : s.job = some j) (hf : j.failed = none) (ht : j.todo = []) (ho : j.out = []) :
    finishJob s = endJob (jobBody j.cmd) j s := by
  simp [finishJob, hj, hf, ht, ho]

theorem issueRead_left {k : Nat} {r : BusRead} (hj : s.job = some j) (hf : j.failed = none)
    (hr : j.todo[k]? = some r) :
    issueRead k s = { s with job := some { j with todo := j.todo.eraseIdx k, out := j.out ++ [r] } } := by
  simp [issueRead, hj, hf, hr]

theorem issueRead_none {k : Nat} (hj : s.job = some j) (hr : j.todo[k]? = none) : issueRead k s = s := by
  simp [issueRead, hj, hr]

theorem issueRead_failed {k a : Nat} (hj : s.job = some j) (hf : j.failed = some a) : issueRead k s = s := by
  simp [issueRead, hj, hf]

theorem answerRead_none {k : Nat} (hj : s.job = some j) (hr : j.out[k]? = none) : answerRead k s = s := by
  simp [answerRead, hj, hr]

theorem answerRead_never {k : Nat} {r : BusRead} (hj : s.job = some j) (hr : j.out[k]? = some r)
    (hn : r.neverAnswers s.plat = true) : answerRead k s = s := by
  simp [answerRead, hj, hr, answerOne, hn]

theorem answerRead_data {k : Nat} {r : BusRead} (hj : s.job = some j) (hr : j.out[k]? = some r)
    (hb : r.failing s.plat = []) (hs : r.hasSilent s.plat = false) :
    answerRead k s = { s with job := some { j with out := j.out.eraseIdx k } } := by
  simp [answerRead, hj, hr, answerOne, BusRead.neverAnswers, hb, hs]

/-- An error answer: the failing byte seen first is kept, else one of the read's is seen (rule R306). -/
theorem answerRead_error {k : Nat} {r : BusRead} (hj : s.job = some j) (hr : j.out[k]? = some r)
    (hb : r.failing s.plat ≠ []) (hs : r.hasSilent s.plat = false) :
    (answerRead k s).job = some
      { j with
        out := j.out.eraseIdx k
        failed := some (j.failed.getD ((s.spend 1).pickFailing (r.failing s.plat))) } := by
  simp [answerRead, hj, hr, answerOne, BusRead.neverAnswers, hb, hs]

end

theorem busFault_status (cmd : Instr) (a : Nat) (s : State) :
    (busFault cmd a s).status = { s.status with busy := false, err := true, errcode := .bus } := rfl

/-- A completion, raced or not, sets `DONE` and ends the job (rule R309). -/
theorem endJob_completes (body : Body) (j : Job) (s : State) :
    (endJob body j s).status = { s.status with busy := false, done := true } ∧ (endJob body j s).job = none := by
  unfold endJob
  simp only
  split <;> exact ⟨rfl, rfl⟩

/-- Settles O43: the moves' answers, one by one. -/
theorem jobEndsOnlyWhenAnswered : Obligations.JobEndsOnlyWhenAnswered := by
  intro s j hj
  refine ⟨finishJob_outstanding hj, finishJob_unissued hj, fun k r => issueRead_left hj, fun k r => answerRead_data hj,
    fun k r hr hb hs => ?error, fun k r => answerRead_never hj,
    fun a hf => ⟨fun k => issueRead_failed hj hf, fun ho => ?busFault⟩, fun hf ht ho => ?done⟩
  case error =>
    refine ⟨_, j.failed.getD ((s.spend 1).pickFailing (r.failing s.plat)), rfl, answerRead_error hj hr hb hs, ?_⟩
    cases j.failed with
    | some a => exact .inl rfl
    | none => exact .inr ⟨rfl, State.pickFailing_mem _ hb⟩
  case busFault =>
    rw [finishJob_failed hj hf ho]
    exact ⟨busFault_status j.cmd a s, rfl, rfl⟩
  case done =>
    rw [finishJob_answered hj hf ht ho]
    exact endJob_completes _ j s

/-! ### Any order of the reads -/

/-- The state with the reads of its job `j` moved on. -/
def State.withReads (s : State) (j : Job) (todo out : List BusRead) : State :=
  { s with job := some { j with todo := todo, out := out } }

/-- What is left to do of job `j` of `s`: only its lists of reads differ, and the reads in them are the job's. -/
def readsInFlight (s : State) (j : Job) (t : State) : Prop :=
  ∃ todo out, t = s.withReads j todo out ∧ ∀ r ∈ todo ++ out, r ∈ j.reads

/-- The results of a completion do not depend on where the job's reads were. -/
theorem endJob_withReads (body : Body) (j : Job) (s : State) (todo out : List BusRead) :
    endJob body { j with todo := todo, out := out } (s.withReads j todo out) = endJob body j s := rfl

section
variable {s t : State} {j : Job}

theorem readsInFlight.issue (hf : j.failed = none) (h : readsInFlight s j t) (k : Nat) :
    readsInFlight s j (issueRead k t) := by
  obtain ⟨todo, out, rfl, hleft⟩ := id h
  cases hr : todo[k]? with
  | none => rwa [issueRead_none (j := { j with todo := todo, out := out }) rfl hr]
  | some r =>
    refine ⟨todo.eraseIdx k, out ++ [r], issueRead_left (j := { j with todo := todo, out := out }) rfl hf hr,
      fun q hq => hleft q ?_⟩
    have htodo : q ∈ todo.eraseIdx k → q ∈ todo := List.mem_of_mem_eraseIdx
    have hissued : q = r → q ∈ todo := fun e => e ▸ List.mem_of_getElem? hr
    simp only [List.mem_append, List.mem_singleton] at hq ⊢
    tauto

theorem readsInFlight.answer (hb : ∀ r ∈ j.reads, r.failing s.plat = []) (hs : ∀ r ∈ j.reads, r.hasSilent s.plat = false)
    (h : readsInFlight s j t) (k : Nat) : readsInFlight s j (answerRead k t) := by
  obtain ⟨todo, out, rfl, hleft⟩ := id h
  cases hr : out[k]? with
  | none => rwa [answerRead_none (j := { j with todo := todo, out := out }) rfl hr]
  | some r =>
    have hmem : r ∈ j.reads := hleft r (List.mem_append_right _ (List.mem_of_getElem? hr))
    refine ⟨todo, out.eraseIdx k,
      answerRead_data (j := { j with todo := todo, out := out }) rfl hr (hb r hmem) (hs r hmem), fun q hq => ?_⟩
    exact hleft q (List.mem_append.2 ((List.mem_append.1 hq).imp_right List.mem_of_mem_eraseIdx))

/-- Moves that issue and answer reads leave them in flight. -/
theorem readsInFlight.moves (hf : j.failed = none) (hb : ∀ r ∈ j.reads, r.failing s.plat = [])
    (hs : ∀ r ∈ j.reads, r.hasSilent s.plat = false) {es : List Event} (hes : ∀ e ∈ es, e.isReadMove = true)
    (h : readsInFlight s j t) : readsInFlight s j (afterMoves es t) := by
  induction es generalizing t with
  | nil => exact h
  | cons e es ih =>
    obtain ⟨hmove, hmoves⟩ := List.forall_mem_cons.1 hes
    cases e <;> simp only [Event.isReadMove, Bool.false_eq_true] at hmove
    case issue k => exact ih hmoves (h.issue hf k)
    case answer k => exact ih hmoves (h.answer hb hs k)

/-- With no read left to issue or to answer, the job ends as it would have ended at its start. -/
theorem readsInFlight.finishJob_eq (hf : j.failed = none) (h : readsInFlight s j t)
    (hnone : ∃ j', t.job = some j' ∧ j'.todo = [] ∧ j'.out = []) : finishJob t = endJob (jobBody j.cmd) j s := by
  obtain ⟨todo, out, rfl, -⟩ := h
  obtain ⟨j', hj, htodo, hout⟩ := hnone
  obtain rfl : { j with todo := todo, out := out } = j' := Option.some.inj hj
  rw [finishJob_answered hj hf htodo hout]
  exact endJob_withReads (jobBody j.cmd) j s todo out

end

/-- A started job whose reads all answer with data runs on to its completion. -/
theorem runJob_started {i : Instr} {s : State} (hb : ∀ r ∈ readPlan (jobBody i) s, r.failing s.plat = [])
    (hs : ∀ r ∈ readPlan (jobBody i) s, r.hasSilent s.plat = false) :
    runJob (s.started i) = endJob (jobBody i) (startedJob i (jobBody i) s) (s.started i) :=
  settle_clean (j := startedJob i (jobBody i) s) (s := s.started i) rfl hb hs

/-- Settles O44: the moves leave the registers and memory as they are, and the result is made of these at the end. -/
theorem anyReadOrderSameResult : Obligations.AnyReadOrderSameResult := by
  intro i s es _ _ hreads hes hnone
  have hb : ∀ r ∈ readPlan (jobBody i) s, r.failing s.plat = [] := fun r hr => (hreads r hr).1
  have hs : ∀ r ∈ readPlan (jobBody i) s, r.hasSilent s.plat = false := fun r hr => (hreads r hr).2.1
  have hstart : readsInFlight (s.started i) (startedJob i (jobBody i) s) (s.started i) :=
    ⟨readPlan (jobBody i) s, [], rfl, by simp [startedJob]⟩
  rw [runJob_started hb hs]
  exact (hstart.moves rfl hb hs hes).finishJob_eq rfl hnone

end Sys2Proof.Machine
end
section
/-! Who writes bus memory: of the agents' moves only a store (rule R86). -/

namespace Sys2Proof.Machine

theorem settle_mem (body : Body) (j : Job) (s : State) : (settle body j s).mem = s.mem := by
  rcases settle_cases body j s with ⟨out, n, heq, -⟩ | ⟨a, n, heq, -⟩ | ⟨heq, -⟩ <;> rw [heq]
  · rfl
  · rfl
  · obtain ⟨⟨-, -, hmem, -⟩, -⟩ := endJob_frame body j s
    exact hmem

theorem runJob_mem (s : State) : (runJob s).mem = s.mem := by
  unfold runJob
  split
  · rfl
  · exact settle_mem _ _ s

theorem finishJob_mem (s : State) : (finishJob s).mem = s.mem := by
  cases hj : s.job with
  | none => simp [finishJob, hj]
  | some j =>
    by_cases ho : j.out = []
    · cases hf : j.failed with
      | some a => rw [finishJob_failed hj hf ho]; rfl
      | none =>
        by_cases ht : j.todo = []
        · obtain ⟨⟨-, -, hmem, -⟩, -⟩ := endJob_frame (jobBody j.cmd) j s
          rw [finishJob_answered hj hf ht ho, hmem]
        · rw [finishJob_unissued hj hf ht]
    · rw [finishJob_outstanding hj ho]

theorem issueRead_mem (k : Nat) (s : State) : (issueRead k s).mem = s.mem := by
  unfold issueRead
  split
  · rfl
  · split <;> rfl

theorem answerRead_mem (k : Nat) (s : State) : (answerRead k s).mem = s.mem := by
  unfold answerRead answerOne
  split
  · rfl
  · split
    · rfl
    · split_ifs <;> rfl

theorem onCommand_mem (i : Instr) (s : State) : (onCommand i (commandCheck i) (jobBody i) s).mem = s.mem := by
  cases hb : s.blocked with
  | true => rw [onCommand_blocked hb]; rfl
  | false =>
    cases hc : commandCheck i s with
    | some c => rw [onCommand_fault hb hc]; rfl
    | none =>
      cases he : s.eager && !readsMemory i with
      | false => rw [onCommand_deferred hb hc he]; rfl
      | true => rw [onCommand_eager hb hc he, settle_mem]; rfl

theorem onIllegal_mem (s : State) : (onIllegal s).mem = s.mem := by
  unfold onIllegal
  split <;> rfl

theorem commandWrite_mem {w : Word32} {s t : State} (ht : commandWrite w s = .next t) : t.mem = s.mem := by
  rcases commandWrite_cases w s with ⟨i, heq⟩ | heq <;> cases heq.symm.trans ht
  · exact onCommand_mem i s
  · exact onIllegal_mem s

theorem hostRead_mem (a : Word64) (width : Nat) (s : State) : (hostRead a width s).mem = s.mem :=
  (congrArg State.mem (hostRead_frame a width s) :)

theorem windowWrite_mem (o width : Nat) (v : Word64) (s : State) : (windowWrite o width v s).mem = s.mem := by
  unfold windowWrite
  split
  · rfl
  · cases regAt o <;> rfl

theorem hostWrite_mem {a : Word64} {width : Nat} {v : Word64} {s t : State} (ht : hostWrite a width v s = .next t) :
    t.mem = s.mem := by
  unfold hostWrite at ht
  split at ht
  · cases ht; rfl
  · split at ht
    · split at ht
      · exact (commandWrite_mem ht :)
      · cases ht; exact windowWrite_mem ..
    · cases ht; rfl

theorem waitTurn_mem (rest : List HostLine) (s : State) : (waitTurn rest s).mem = s.mem := by
  rw [waitTurn, hostRead_mem]
  split <;> rfl

theorem hostLine_mem {s t : State} (ht : hostLine s = .next t) : t.mem = s.mem := by
  unfold hostLine at ht
  split at ht
  · cases ht; rfl
  · cases ht; exact hostRead_mem ..
  · exact (hostWrite_mem ht :)
  · cases ht; exact waitTurn_mem ..

/-- Every move but a store leaves bus memory as it is. -/
theorem perform_mem {e : Event} {s t : State} (he : ∀ a v, e ≠ .store a v) (ht : perform e s = .next t) :
    t.mem = s.mem := by
  cases e <;> simp only [perform, Host.Outcome.next.injEq] at ht
  case store a v => exact absurd rfl (he a v)
  case hostWrite => exact hostWrite_mem ht
  case line => exact hostLine_mem ht
  all_goals subst ht
  case hostRead => exact hostRead_mem ..
  case issue => exact issueRead_mem ..
  case answer => exact answerRead_mem ..
  case finish => exact finishJob_mem s
  case run => exact runJob_mem s
  case pace | publish | reset => rfl

theorem unscheduled_mem {s t : State} (ht : unscheduled s = .next t) : t.mem = s.mem := by
  unfold unscheduled at ht
  split at ht
  · cases ht; exact runJob_mem s
  · exact hostLine_mem ht

/-- The step with a move scheduled is that move. -/
theorem step_event {s : State} {e : Event} {rest : List Event} (h : s.events = e :: rest) :
    step s = perform e { s with events := rest } := by
  rw [step, h]

theorem markRace_mem (a : Nat) (s : State) : (markRace a s).mem = s.mem := by
  unfold markRace
  split <;> rfl

theorem storeByte_mem (a : Word64) (v : Byte) (s : State) : (storeByte a v s).mem = Memory.write s.mem a.toNat v := by
  rw [storeByte, markRace_mem]

/-- Settles O37: a store writes its byte, and no other move writes memory. -/
theorem engineNeverWritesMemory : Obligations.EngineNeverWritesMemory := by
  refine ⟨fun s t ht hnostore => ?other, fun s t a v rest hwf he ht => ?store⟩
  case other =>
    cases he : s.events with
    | nil =>
      rw [step, he] at ht
      exact unscheduled_mem ht
    | cons e rest =>
      rw [step_event he] at ht
      exact perform_mem (s := { s with events := rest }) (fun a v hev => hnostore a v rest (by rw [he, hev])) ht
  case store =>
    rw [step_event he] at ht
    obtain rfl : storeByte a v { s with events := rest } = t := Host.Outcome.next.inj ht
    have hread : ∀ x, Memory.read (storeByte a v { s with events := rest }).mem x
        = if x = a.toNat then v else Memory.read s.mem x := fun x => by
      rw [storeByte_mem]
      exact Memory.read_write hwf a.toNat x v
    exact ⟨(hread _).trans (if_pos rfl), fun b hb => (hread b).trans (if_neg hb)⟩

end Sys2Proof.Machine
end
section
/-! A job of unstable bytes: a store to a byte it reads, a device's byte, an unpublished byte (rules R91, R96, R97). -/

namespace Sys2Proof.Machine

/-! ### Where striping engages -/

theorem stripeLanes_engaged (bytes : Bytes) (a n : Nat) (r : Run) : (stripeLanes bytes a n r).engaged = r.engaged := by
  unfold stripeLanes
  induction List.range n generalizing r with
  | nil => rfl
  | cons i l ih =>
    rw [List.foldl_cons, ih]
    unfold loopUnit lane2Step
    split <;> rfl

theorem stripeLoop_engaged (bytes : Bytes) (fuel loops : Nat) (r : Run) :
    (stripeLoop bytes fuel loops r).engaged = r.engaged := by
  induction fuel generalizing loops r with
  | zero => rfl
  | succ fuel ih =>
    unfold stripeLoop
    split
    · rfl
    · rw [ih]
      exact stripeLanes_engaged bytes r.addr _ r

theorem stripeBody_engaged (bytes : Bytes) {r : Run} (h : 96 ≤ r.len) : (stripeBody bytes r).engaged = true := by
  rw [stripeBody, if_neg (not_lt.2 h)]
  exact stripeLoop_engaged bytes _ _ (stripeStart r)

/-- Of the commands but COMBINE, those that write the lane registers are those whose striping engages (rules R52, R183). -/
theorem jobBody_engaged {i : Instr} (hi : ∀ n, i ≠ .combine n) (bytes : Bytes) {r : Run} (hr : r.engaged = false) :
    (jobBody i bytes r).engaged = lanesWritten i r.addr r.len := by
  cases hl : lanesWritten i r.addr r.len with
  | false =>
    obtain ⟨-, -, -, he⟩ := jobBody_lanes bytes hl
    rw [he, hr]
  | true =>
    cases i <;> simp only [lanesWritten, Bool.false_eq_true, decide_eq_true_eq] at hl
    case combine n => exact absurd rfl (hi n)
    case stripe => exact stripeBody_engaged bytes hl
    case compute =>
      obtain ⟨-, hlen⟩ := prologueBody_cursor bytes r
      obtain ⟨-, -, -, he⟩ := epilogueBody_lanes bytes (stripeBody bytes (prologueBody bytes r))
      rw [jobBody, computeBody, he]
      exact stripeBody_engaged bytes (hlen ▸ hl)

/-! ### A raced job's end -/

/-- A raced job completes with free values where its command writes (log 10). -/
theorem endJob_raced {j : Job} (s : State) (hraced : j.raced = true) (hi : ∀ n, j.cmd ≠ .combine n) :
    endJob (jobBody j.cmd) j s = (s.drawResults (lanesWritten j.cmd s.addr.toNat s.len.toNat)).complete := by
  rw [endJob, hraced]
  exact congrArg (fun lanes => (s.drawResults lanes).complete) (jobBody_engaged hi _ rfl)

/-- What a completion with free values leaves. -/
theorem complete_drawResults (s : State) (lanes : Bool) :
    ∃ t, (s.drawResults lanes).complete = t ∧ t.acc = (Config.draw s.draws).setWidth 32
      ∧ t.addr = Config.draw (s.draws + 1) ∧ t.len = Config.draw (s.draws + 2)
      ∧ (lanes = true →
        t.crc0 = (Config.draw (s.draws + 3)).setWidth 32 ∧ t.crc1 = (Config.draw (s.draws + 4)).setWidth 32
          ∧ t.crc2 = (Config.draw (s.draws + 5)).setWidth 32)
      ∧ (lanes = false → t.crc0 = s.crc0 ∧ t.crc1 = s.crc1 ∧ t.crc2 = s.crc2)
      ∧ t.status = { s.status with busy := false, done := true } ∧ t.erraddr = s.erraddr ∧ t.job = none
      ∧ s.sameSurroundings t := by
  refine ⟨_, rfl, rfl, rfl, rfl, ?_, ?_, rfl, rfl, rfl, rfl, rfl, rfl, rfl, rfl, rfl, rfl, rfl, rfl⟩ <;>
    rintro rfl <;> exact ⟨rfl, rfl, rfl⟩

/-! ### Stores -/

theorem markRace_job {s : State} {j : Job} {a : Nat} (hj : s.job = some j) :
    (markRace a s).job = some { j with raced := j.raced || j.reads.any fun r => r.covers a } := by
  simp [markRace, hj]

theorem storeByte_job {s : State} {j : Job} (a : Word64) (v : Byte) (hj : s.job = some j) :
    (storeByte a v s).job = some { j with raced := j.raced || j.reads.any fun r => r.covers a.toNat } :=
  markRace_job hj

theorem markRace_stale (a : Nat) (s : State) : (markRace a s).stale = s.stale := by
  unfold markRace
  split <;> rfl

theorem storeByte_stale (a : Word64) (v : Byte) (s : State) :
    (storeByte a v s).stale = if s.plat.coherent then s.stale else insertAddr s.stale a.toNat :=
  markRace_stale _ _

/-- Settles O45: the store marks the job, and a marked job's completion draws its results. -/
theorem raceFreesTheResult : Obligations.RaceFreesTheResult := by
  intro s j hj
  refine ⟨fun a v hcovers => ⟨_, rfl, ?_⟩, fun hraced hf ht ho hi => ?_⟩
  · have hany : (j.reads.any fun r => r.covers a.toNat) = true := List.any_eq_true.2 hcovers
    rw [storeByte_job a v hj, hany, Bool.or_true]
  · rw [finishJob_answered hj hf ht ho, endJob_raced s hraced hi]
    exact complete_drawResults s _

/-! ### Device bytes and unpublished bytes -/

/-- A command that passes its checks and has a read starts its job in its acceptance step (rules R300, R315). -/
theorem exec_started {i : Instr} {s : State} (hready : s.ready) (hc : commandCheck i s = none)
    (hm : readsMemory i = true) : exec i s = .next (s.started i) := by
  have hb : s.blocked = false := Bool.or_eq_false_iff.2 hready
  rw [exec_eq_onCommand, onCommand_deferred hb hc (by simp [hm])]
  rfl

theorem readsMemory_of_mem_readPlan {i : Instr} {s : State} {r : BusRead} (h : r ∈ readPlan (jobBody i) s) :
    readsMemory i = true := by
  cases hm : readsMemory i with
  | true => rfl
  | false => exact absurd (readPlan_of_readsNoMemory hm s ▸ h) List.not_mem_nil

theorem BusRead.unstable_iff {p : Platform} {stale : List Nat} {r : BusRead} :
    r.unstable p stale = true ↔ ∃ a ∈ r.bytes, p.answer a = .device ∨ a ∈ stale := by
  simp [BusRead.unstable]

/-- Settles O46: the job starts as a raced one, and runs on to a completion with free values. -/
theorem unstableReadsFreeTheResult : Obligations.UnstableReadsFreeTheResult := by
  refine ⟨fun i s hready hc hunstable => ?job, fun s a v => ⟨fun hp => ?incoherent, fun hp => ?coherent⟩, fun s => rfl⟩
  case job =>
    obtain ⟨r, hr, hbyte⟩ := hunstable
    have hm : readsMemory i = true := readsMemory_of_mem_readPlan hr
    have hraced : (startedJob i (jobBody i) s).raced = true :=
      List.any_eq_true.2 ⟨r, hr, BusRead.unstable_iff.2 hbyte⟩
    have hi : ∀ n, i ≠ .combine n := by
      rintro n rfl
      simp [readsMemory] at hm
    refine ⟨exec_started hready hc hm, ⟨_, rfl, hraced⟩, fun hanswer => ?_⟩
    have hrun : runJob (s.started i) = ((s.started i).drawResults (lanesWritten i s.addr.toNat s.len.toNat)).complete :=
      (runJob_started (fun q hq => (hanswer q hq).1) fun q hq => (hanswer q hq).2).trans
        (endJob_raced (s.started i) hraced hi)
    rw [hrun]
    exact complete_drawResults (s.started i) _
  case incoherent =>
    refine ⟨_, rfl, ?_⟩
    rw [storeByte_stale, hp]
    exact ⟨mem_insertAddr.2 (.inl rfl), fun b hb => mem_insertAddr.trans (or_iff_right hb)⟩
  case coherent => exact ⟨_, rfl, by rw [storeByte_stale, hp]; rfl⟩

end Sys2Proof.Machine
end
section
/-! A host write as a step: command writes, and the accesses the window refuses (rules R81, R84). -/

namespace Sys2Proof.Machine

/-- A step that is a command write (rule R84). -/
theorem step_commandWrite {s : State} {rest : List Event} {width : Nat} {v : Word64} (hw : width = 4 ∨ width = 8)
    (h : s.events = .hostWrite (s.windowAddr 0x008) width v :: rest) :
    step s = commandWrite (v.setWidth 32) { s with events := rest, resp := .done } := by
  rw [step_event h]
  exact hostWrite_command { s with events := rest } v hw

/-- Settles O6: the write reaches the command register, or the half of its 8 bytes that does nothing. -/
theorem stepRunsTheDecodedCommand : Obligations.StepRunsTheDecodedCommand := by
  intro s rest width v
  refine ⟨fun hw h => ⟨fun i hi => ?_, fun e he => ?_⟩, fun h => ?_⟩
  · rw [step_commandWrite hw h, commandWrite, hi]
  · rw [step_commandWrite hw h, commandWrite, he]
  · rw [step_event h]
    refine (hostWrite_window { s with events := rest } v (o := 0x00C) (by decide) rfl (by decide)).trans ?_
    have hcmd : regAt 0x00C = .cmd := rfl
    rw [windowWrite, hcmd]
    simp [Reg.isOperand, regWrite]

/-- The window takes the accesses of rule R81 and no other. -/
theorem accessOk_iff (o width : Nat) : accessOk o width = true ↔ width = 4 ∧ o % 4 = 0 ∨ width = 8 ∧ o % 8 = 0 := by
  simp [accessOk]

/-- Settles O55: an access that the window does not take gets an error response. -/
theorem refusedAccesses : Obligations.RefusedAccesses := by
  intro s o width v ho hbad
  have hrefused : ¬ accessOk o width = true := fun ok => hbad ((accessOk_iff o width).1 ok)
  constructor
  · simp [hostRead, windowOffset_windowAddr s ho, hrefused]
  · simp [hostWrite, windowOffset_windowAddr s ho, hrefused]

end Sys2Proof.Machine
end

section
/-! The decoder through the three fields of a command word: which words a row of the opcode map covers, and that the
encoder and the decoder invert each other (rules R110 to R114). -/

namespace Sys2Proof

/-! ### The fields of a word -/

/-- A command word is its three fields (rule R111). -/
theorem word_eq_append (w : Word32) : w = rsvField w ++ nField w ++ opField w := by
  apply BitVec.eq_of_getLsbD_eq
  intro k hk
  simp only [opField, nField, rsvField, BitVec.getLsbD_append, BitVec.getLsbD_extractLsb']
  by_cases h8 : k < 8
  · simp [h8]
  · by_cases h16 : k - 8 < 8
    · simp [h8, h16, show 8 + (k - 8) = k by omega]
    · simp [h8, h16, show 16 + (k - 8 - 8) = k by omega, show k - 8 - 8 < 16 by omega]

theorem word_eq_iff {w v : Word32} :
    w = v ↔ opField w = opField v ∧ nField w = nField v ∧ rsvField w = rsvField v := by
  refine ⟨fun h => h ▸ ⟨rfl, rfl, rfl⟩, fun ⟨ho, hn, hr⟩ => ?_⟩
  rw [word_eq_append w, word_eq_append v, ho, hn, hr]

/-- The fields of every command's word. -/
theorem encode_fields (i : Instr) :
    opField (encode i) = i.opcode ∧ nField (encode i) = i.nImmediate ∧ rsvField (encode i) = 0#16 :=
  Laws.Format.fields_of_append _ _

/-! ### The rows of the opcode map -/

/-- A row's mask and pattern, field by field. -/
theorem OpRow.covers_iff_fields (r : OpRow) (w : Word32) :
    r.covers w = true ↔ opField w &&& opField r.mask = opField r.pattern
      ∧ nField w &&& nField r.mask = nField r.pattern ∧ rsvField w &&& rsvField r.mask = rsvField r.pattern := by
  simp only [OpRow.covers, beq_iff_eq, word_eq_iff, opField, nField, rsvField, BitVec.extractLsb'_and]

/-- Every row fixes `OP`, fixes `RSV` at 0, and fixes `N` at 0 unless it is COMBINE's (rule R113). -/
theorem opcodeMap_fields : ∀ r ∈ opcodeMap,
    opField r.mask = 0xFF#8 ∧ nField r.mask = (if opField r.pattern = 0x12#8 then 0x00#8 else 0xFF#8)
      ∧ nField r.pattern = 0#8 ∧ rsvField r.mask = 0xFFFF#16 ∧ rsvField r.pattern = 0#16 := by
  decide

/-- The words a row covers: its `OP`, `N` = 0 or COMBINE's `OP`, and `RSV` = 0. -/
theorem OpRow.covers_iff {r : OpRow} (hr : r ∈ opcodeMap) (w : Word32) :
    r.covers w = true ↔
      opField r.pattern = opField w ∧ (opField w = 0x12#8 ∨ nField w = 0#8) ∧ rsvField w = 0#16 := by
  obtain ⟨hop, hn, hn0, hrsv, hrsv0⟩ := opcodeMap_fields r hr
  have full8 (b : Byte) : b &&& 0xFF#8 = b := BitVec.and_allOnes
  have full16 (b : BitVec 16) : b &&& 0xFFFF#16 = b := BitVec.and_allOnes
  rw [OpRow.covers_iff_fields, hop, hn, hn0, hrsv, hrsv0, full8, full16, eq_comm]
  refine and_congr_right fun h => and_congr_left fun _ => ?_
  rw [h]
  split_ifs with h12 <;> simp [h12, full8]

/-- Rows of the map that cover one word have its opcode. -/
theorem OpRow.opcode_eq_of_covers {r q : OpRow} (hr : r ∈ opcodeMap) (hq : q ∈ opcodeMap) {w : Word32}
    (hrw : r.covers w = true) (hqw : q.covers w = true) : opField r.pattern = opField q.pattern :=
  calc opField r.pattern = opField w := ((OpRow.covers_iff hr w).1 hrw).1
    _ = opField q.pattern := ((OpRow.covers_iff hq w).1 hqw).1.symm

/-- The ten opcodes of the map, in its order. -/
theorem opcodeMap_opcodes : opcodeMap.map (fun r => opField r.pattern) =
    [0x00#8, 0x01#8, 0x02#8, 0x03#8, 0x04#8, 0x10#8, 0x11#8, 0x12#8, 0x13#8, 0x14#8] := by
  decide

theorem opcodes_nodup : (opcodeMap.map fun r => opField r.pattern).Nodup := by decide

/-- Settles O4: the rows' opcodes differ, and a row covers only words with its own. -/
theorem noWordHasTwoMeanings : Obligations.NoWordHasTwoMeanings := by
  refine (List.pairwise_map.1 opcodes_nodup).imp_of_mem fun hr hq hne w ⟨hrw, hqw⟩ => hne ?_
  exact OpRow.opcode_eq_of_covers hr hq hrw hqw

/-! ### The decoder -/

/-- Rows of the map that cover one word are one row. -/
theorem OpRow.eq_of_covers {r q : OpRow} (hr : r ∈ opcodeMap) (hq : q ∈ opcodeMap) {w : Word32}
    (hrw : r.covers w = true) (hqw : q.covers w = true) : r = q :=
  List.inj_on_of_nodup_map opcodes_nodup hr hq (OpRow.opcode_eq_of_covers hr hq hrw hqw)

/-- The decoder answers with the command of the row that covers the word. -/
theorem decodeWord_eq_ok_iff {w : Word32} {i : Instr} :
    decodeWord w = .ok i ↔ ∃ r ∈ opcodeMap, r.covers w = true ∧ r.command (nField w).toNat = i := by
  unfold decodeWord
  split
  · next r hfind =>
    have hr : r ∈ opcodeMap := List.mem_of_find?_eq_some hfind
    have hrw : r.covers w = true := List.find?_some (p := fun r : OpRow => r.covers w) hfind
    constructor
    · intro h
      exact ⟨r, hr, hrw, Except.ok.inj h⟩
    · rintro ⟨q, hq, hqw, rfl⟩
      rw [OpRow.eq_of_covers hq hr hqw hrw]
  · next hnone =>
    simp only [reduceCtorEq, false_iff, not_exists, not_and]
    exact fun r hr hrw => (List.find?_eq_none.1 hnone r hr hrw).elim

/-- The command of a row has the row's opcode, a word for every `N`, and for an `N` that the row covers that immediate. -/
theorem command_fields {r : OpRow} (hr : r ∈ opcodeMap) (n : Byte) :
    (r.command n.toNat).wellFormed = true ∧ (r.command n.toNat).opcode = opField r.pattern
      ∧ (opField r.pattern = 0x12#8 ∨ n = 0#8 → (r.command n.toNat).nImmediate = n) := by
  simp only [opcodeMap, List.mem_cons, List.not_mem_nil, or_false] at hr
  rcases hr with rfl | rfl | rfl | rfl | rfl | rfl | rfl | rfl | rfl | rfl
  -- COMBINE's row, the one whose command depends on `N`.
  pick_goal 8
  · have hn : BitVec.ofNat 8 n.toNat = n := (BitVec.ofNat_toNat 8 n).trans (BitVec.setWidth_eq n)
    exact ⟨decide_eq_true (Nat.le_of_lt_succ n.isLt), rfl, fun _ => hn⟩
  all_goals exact ⟨rfl, rfl, fun h => (h.resolve_left (by decide)).symm⟩

/-- A command stands in the map, at the row of its opcode. -/
theorem exists_row {i : Instr} (hwf : i.wellFormed = true) :
    ∃ r ∈ opcodeMap, opField r.pattern = i.opcode ∧ r.command i.nImmediate.toNat = i := by
  cases i
  case combine n =>
    have hn : n < 2 ^ 8 := Nat.lt_succ_of_le (of_decide_eq_true hwf)
    refine ⟨opcodeMap[7], List.getElem_mem _, rfl, congrArg Instr.combine ?_⟩
    exact (BitVec.toNat_ofNat n 8).trans (Nat.mod_eq_of_lt hn)
  all_goals decide

/-- Only COMBINE has an immediate (rule R111). -/
theorem opcode_combine_or_nImmediate_zero (i : Instr) : i.opcode = 0x12#8 ∨ i.nImmediate = 0#8 := by
  cases i
  case combine => exact .inl rfl
  all_goals exact .inr rfl

/-- Settles O1: the row of the command's opcode covers the command's word. -/
theorem decodeOfEncode : Obligations.DecodeOfEncode := by
  intro i hwf
  obtain ⟨hop, hn, hrsv⟩ := encode_fields i
  obtain ⟨r, hr, hrop, hcmd⟩ := exists_row hwf
  refine decodeWord_eq_ok_iff.2 ⟨r, hr, (OpRow.covers_iff hr _).2 ?_, by rw [hn, hcmd]⟩
  rw [hop, hn]
  exact ⟨hrop, opcode_combine_or_nImmediate_zero i, hrsv⟩

/-- Settles O2: the word and its command's word agree in each of the three fields. -/
theorem encodeOfDecode : Obligations.EncodeOfDecode := by
  intro w i h
  obtain ⟨r, hr, hrw, rfl⟩ := decodeWord_eq_ok_iff.1 h
  obtain ⟨hop, hn, hrsv⟩ := (OpRow.covers_iff hr w).1 hrw
  obtain ⟨hwf, hiop, hin⟩ := command_fields hr (nField w)
  obtain ⟨heop, hen, hersv⟩ := encode_fields (r.command (nField w).toNat)
  refine ⟨word_eq_iff.2 ⟨?_, ?_, ?_⟩, hwf⟩
  · rw [heop, hiop, hop]
  · rw [hen, hin (hop ▸ hn)]
  · rw [hersv, hrsv]

/-! ### Illegal words -/

/-- The legal words, field by field. -/
theorem covered_iff (w : Word32) : (∃ r ∈ opcodeMap, r.covers w = true) ↔
    opField w ∈ opcodeMap.map (fun r => opField r.pattern) ∧ (opField w = 0x12#8 ∨ nField w = 0#8)
      ∧ rsvField w = 0#16 := by
  rw [List.mem_map]
  constructor
  · rintro ⟨r, hr, hrw⟩
    obtain ⟨hop, hrest⟩ := (OpRow.covers_iff hr w).1 hrw
    exact ⟨⟨r, hr, hop⟩, hrest⟩
  · rintro ⟨⟨r, hr, hop⟩, hrest⟩
    exact ⟨r, hr, (OpRow.covers_iff hr w).2 ⟨hop, hrest⟩⟩

theorem illegalWord_of_ok {w : Word32} {i : Instr} (h : decodeWord w = .ok i) : illegalWord w = false := by
  rw [illegalWord, h]

theorem illegalWord_of_error {w : Word32} {e : Reject} (h : decodeWord w = .error e) : illegalWord w = true := by
  rw [illegalWord, h]

/-- A word is illegal where no row covers it (rule R300). -/
theorem illegalWord_iff_uncovered (w : Word32) : illegalWord w = true ↔ ¬ ∃ r ∈ opcodeMap, r.covers w = true := by
  cases h : decodeWord w with
  | ok i =>
    obtain ⟨r, hr, hrw, -⟩ := decodeWord_eq_ok_iff.1 h
    exact iff_of_false (by simp [illegalWord_of_ok h]) (not_not_intro ⟨r, hr, hrw⟩)
  | error e =>
    refine iff_of_true (illegalWord_of_error h) fun ⟨r, hr, hrw⟩ => ?_
    cases h.symm.trans (decodeWord_eq_ok_iff.2 ⟨r, hr, hrw, rfl⟩)

end Sys2Proof
end

section
/-! Command words at the engine: an illegal word and a COMBINE out of range, from a ready engine (rules R114, R118). -/

namespace Sys2Proof.Machine

/-- A ready engine accepts (rule R300). -/
theorem State.ready.not_blocked {s : State} (h : s.ready) : s.blocked = false := by
  simp [State.blocked, h.1, h.2]

/-- Taking a precondition fault at acceptance (rule R302). -/
theorem accept_raiseFault (s : State) (c : FaultCode) : s.accept.raiseFault c 0 = s.preconditionFault c := rfl

/-- An illegal word, accepted, faults ILLEGAL. -/
theorem commandWrite_illegal {w : Word32} {s : State} (hw : illegalWord w = true) (h : s.ready) :
    commandWrite w s = .next (s.preconditionFault .illegal) := by
  have hfault : onIllegal s = s.preconditionFault .illegal := by
    rw [onIllegal, if_neg (by simp [h.not_blocked]), accept_raiseFault]
  cases hd : decodeWord w with
  | ok i => cases hw.symm.trans (illegalWord_of_ok hd)
  | error e => rw [← hfault, commandWrite, hd]

/-- A legal word, accepted, whose command fails its check. -/
theorem commandWrite_fault {w : Word32} {i : Instr} {s : State} {c : FaultCode} (hw : decodeWord w = .ok i)
    (h : s.ready) (hc : commandCheck i s = some c) : commandWrite w s = .next (s.preconditionFault c) :=
  calc commandWrite w s = exec i s := by rw [commandWrite, hw]
    _ = .next (s.preconditionFault c) := by
      rw [exec_eq_onCommand, onCommand_fault h.not_blocked hc, accept_raiseFault]

/-- Settles O3: a word is legal where none of the rule's grounds holds, field by field. -/
theorem illegalWordsFault : Obligations.IllegalWordsFault := by
  intro w
  refine ⟨?_, fun s hw hbusy herr => commandWrite_illegal hw ⟨hbusy, herr⟩⟩
  rw [illegalWord_iff_uncovered, covered_iff, opcodeMap_opcodes, not_and_or, not_and_or, not_or]

/-- Settles O5: the words are decoded by the map, and both block sizes fail COMBINE's check in every state. -/
theorem workedEncodings : Obligations.WorkedEncodings := by
  refine ⟨by decide, by decide, by decide, by decide, by decide, by decide, by decide, by decide, by decide,
    fun s hbusy herr => ⟨?_, ?_⟩⟩
  · exact commandWrite_fault (i := .combine 129) (by decide) ⟨hbusy, herr⟩ rfl
  · exact commandWrite_fault (i := .combine 0) (by decide) ⟨hbusy, herr⟩ rfl

end Sys2Proof.Machine
end

section
/-! The host program's lines and whose turn it is (rules R116, R347; log 17). -/

namespace Sys2Proof.Machine

/-- One turn of `WAIT` answers with `STATUS` and stays the next line while `BUSY = 1`. -/
theorem waitTurn_busy {s : State} (rest : List HostLine) (hb : s.status.busy = true) :
    waitTurn rest s = { s with resp := .value s.status.word } := by
  rw [waitTurn, if_pos hb]
  exact (State.readsAs_status s).1

theorem waitTurn_idle {s : State} (rest : List HostLine) (hb : s.status.busy = false) :
    waitTurn rest s = { s with program := rest, resp := .value s.status.word } := by
  rw [waitTurn, if_neg (by simp [hb])]
  exact (State.readsAs_status { s with program := rest }).1

theorem step_unscheduled {s : State} (he : s.events = []) : step s = unscheduled s := by
  rw [step, he]

/-- With nothing scheduled and no job the host's program goes on. -/
theorem step_idle {s : State} (he : s.events = []) (hj : s.job = none) : step s = hostLine s := by
  rw [step_unscheduled he, unscheduled, hj]

/-- With nothing scheduled a job runs on. -/
theorem step_running {s : State} {j : Job} (he : s.events = []) (hj : s.job = some j) : step s = .next (runJob s) := by
  rw [step_unscheduled he, unscheduled, hj]

/-- A command line, by whether the command has a word (rule R116). -/
theorem HostOp.line_command (base : Word64) (i : Instr) : HostOp.line base (.command i) =
    if i.wellFormed then some (.write (base + 8) 4 ((encode i).setWidth 64)) else none := rfl

/-- The program's `WAIT` line is one turn of the loop. -/
theorem hostLine_wait {s : State} {rest : List HostLine} (h : s.program = .wait :: rest) :
    hostLine s = .next (waitTurn rest s) := by
  rw [hostLine, h]

/-- Settles O58: each line is its own case of `hostLine`, and `WAIT`'s turn is one read of `STATUS`. -/
theorem hostProgramLines : Obligations.HostProgramLines := by
  refine ⟨fun base i => ⟨fun h => ?_, fun h => ?_⟩, fun s rest es => ⟨fun h => ⟨fun hb => ?_, fun hb => ?_⟩,
    fun a width h => ?_, fun a width v h => ?_, fun h => ?_, step_event, step_idle, fun j => step_running, step_event⟩⟩
  · rw [HostOp.line_command, if_pos h]
  · rw [HostOp.line_command, if_neg (by simp [h])]
  · rw [hostLine_wait h, waitTurn_busy rest hb]
  · rw [hostLine_wait h, waitTurn_idle rest hb]
  all_goals rw [hostLine, h]

end Sys2Proof.Machine
end

section
/-! The laws of the byte step and of `StepBytes`: linearity, the seed as data, concatenation (rules R140, R142). -/

namespace Sys2Proof.Machine

/-- The byte step is eight rounds on the accumulator with the byte added in (rule R140). -/
theorem crcByte_eq_iterate (c : Word32) (b : Byte) : crcByte c b = crcBit^[8] (c ^^^ b.setWidth 32) := rfl

/-! ### Linearity -/

theorem crcBit_xor (a b : Word32) : crcBit (a ^^^ b) = crcBit a ^^^ crcBit b := by
  simp only [crcBit, BitVec.getLsbD_xor, BitVec.ushiftRight_xor_distrib]
  cases a.getLsbD 0 <;> cases b.getLsbD 0
  case false.false => rfl
  case false.true => exact BitVec.xor_assoc _ _ _
  case true.false =>
    change a >>> 1 ^^^ b >>> 1 ^^^ crcPoly = (a >>> 1 ^^^ crcPoly) ^^^ b >>> 1
    ac_rfl
  case true.true =>
    calc a >>> 1 ^^^ b >>> 1
      _ = a >>> 1 ^^^ b >>> 1 ^^^ (crcPoly ^^^ crcPoly) := by rw [BitVec.xor_self, BitVec.xor_zero]
      _ = (a >>> 1 ^^^ crcPoly) ^^^ (b >>> 1 ^^^ crcPoly) := by ac_rfl

theorem crcBit_iterate_xor (k : Nat) (a b : Word32) : crcBit^[k] (a ^^^ b) = crcBit^[k] a ^^^ crcBit^[k] b :=
  Function.Semiconj₂.iterate (f := crcBit) crcBit_xor k a b

theorem crcByte_xor (c c' : Word32) (b b' : Byte) : crcByte (c ^^^ c') (b ^^^ b') = crcByte c b ^^^ crcByte c' b' := by
  simp only [crcByte_eq_iterate, ← crcBit_iterate_xor, BitVec.setWidth_xor]
  ac_rfl

theorem stepBytes_xor (c c' : Word32) (w w' : Word64) (n : Nat) :
    stepBytes (c ^^^ c') (w ^^^ w') n = stepBytes c w n ^^^ stepBytes c' w' n := by
  induction n generalizing c c' w w' with
  | zero => rfl
  | succ n ih =>
    simp only [stepBytes_succ, ← ih, ← crcByte_xor, BitVec.extractLsb'_xor, BitVec.ushiftRight_xor_distrib]

theorem stepBytes_zero_zero (n : Nat) : stepBytes 0 0 n = 0 := by
  simpa using stepBytes_xor 0 0 0 0 n

/-! ### The seed as data -/

/-- Rounds that find no bit set only shift. -/
theorem crcBit_iterate_shift (k : Nat) (c : Word32) (h : ∀ i < k, c.getLsbD i = false) : crcBit^[k] c = c >>> k := by
  induction k with
  | zero => simp
  | succ k ih =>
    have hbit : (c >>> k).getLsbD 0 = false := by simpa using h k (Nat.lt_succ_self k)
    rw [Function.iterate_succ_apply', ih fun i hi => h i (Nat.lt_succ_of_lt hi), crcBit, hbit, BitVec.shiftRight_add]
    rfl

/-- The byte step takes the accumulator's low byte as data and shifts the rest (rule R140). -/
theorem crcByte_seed (c : Word32) (b : Byte) : crcByte c b = crcByte 0 (b ^^^ c.setWidth 8) ^^^ c >>> 8 := by
  have hsplit : c ^^^ b.setWidth 32 = (b ^^^ c.setWidth 8).setWidth 32 ^^^ (c >>> 8 <<< 8) := by
    ext i hi
    by_cases h : i < 8
    · simp [h, BitVec.getLsbD_eq_getElem hi, Bool.xor_comm]
    · have hback : 8 + (i - 8) = i := by omega
      simp [h, hback, BitVec.getLsbD_eq_getElem hi, Bool.xor_comm]
  have hhigh : crcBit^[8] (c >>> 8 <<< 8) = c >>> 8 := by
    rw [crcBit_iterate_shift 8 _ fun i hi => by simp [hi]]
    ext i hi
    simpa using fun hbit => c.lt_of_getLsbD hbit
  rw [crcByte_eq_iterate, hsplit, crcBit_iterate_xor, hhigh, crcByte_eq_iterate, BitVec.ofNat_eq_ofNat, BitVec.zero_xor]

/-- Stepping from an accumulator is stepping from 0 with the accumulator added to the data; what of the accumulator the
`n` bytes do not reach is left, shifted down (rule R142). -/
theorem stepBytes_seed (c : Word32) (w : Word64) (n : Nat) :
    stepBytes c w n = stepBytes 0 (w ^^^ c.setWidth 64) n ^^^ c >>> (8 * n) := by
  induction n generalizing c w with
  | zero => simp
  | succ n ih =>
    have hlow : (w ^^^ c.setWidth 64).extractLsb' 0 8 = w.extractLsb' 0 8 ^^^ c.setWidth 8 := by
      ext i hi
      simp [show i < 64 by omega]
    have hrest : (w ^^^ c.setWidth 64) >>> 8 = w >>> 8 ^^^ (c >>> 8).setWidth 64 := by
      ext i hi
      simp
    rw [stepBytes_succ, stepBytes_succ, crcByte_seed, hlow, hrest]
    generalize crcByte 0 (w.extractLsb' 0 8 ^^^ c.setWidth 8) = x
    have hhigh : c >>> 8 >>> (8 * n) = c >>> (8 * (n + 1)) := by
      rw [← BitVec.shiftRight_add, Nat.mul_succ, Nat.add_comm 8]
    calc stepBytes (x ^^^ c >>> 8) (w >>> 8) n
      _ = stepBytes x 0 n ^^^ stepBytes (c >>> 8) (w >>> 8) n := by simp [← stepBytes_xor]
      _ = stepBytes x 0 n ^^^ (stepBytes 0 (w >>> 8 ^^^ (c >>> 8).setWidth 64) n ^^^ c >>> (8 * (n + 1))) := by
        rw [ih (c >>> 8), hhigh]
      _ = stepBytes x (w >>> 8 ^^^ (c >>> 8).setWidth 64) n ^^^ c >>> (8 * (n + 1)) := by
        simp [← BitVec.xor_assoc, ← stepBytes_xor]

/-- Four bytes or more reach all of the accumulator (rule R142). -/
theorem stepBytes_seed_of_le (c : Word32) (w : Word64) {n : Nat} (h : 4 ≤ n) :
    stepBytes c w n = stepBytes 0 (w ^^^ c.setWidth 64) n := by
  rw [stepBytes_seed, BitVec.ushiftRight_eq_zero (by omega), BitVec.xor_zero]

/-! ### Concatenation -/

theorem stepBytes_add (c : Word32) (w : Word64) (a b : Nat) :
    stepBytes (stepBytes c w a) (w >>> (8 * a)) b = stepBytes c w (a + b) := by
  induction a generalizing c w with
  | zero => simp
  | succ a ih =>
    rw [Nat.add_right_comm, stepBytes_succ, stepBytes_succ, ← ih, ← BitVec.shiftRight_add, Nat.mul_succ,
      Nat.add_comm 8]

/-- `StepBytes` is `Seq` over the word's bytes, lowest first. -/
theorem stepBytes_eq_seq (c : Word32) (w : Word64) (n : Nat) :
    stepBytes c w n = seq c ((List.range n).map fun k => w.extractLsb' (8 * k) 8) :=
  List.foldl_map.symm

/-- Settles O12: linearity first; the other laws go byte by byte, the seed's by moving it into the data with linearity. -/
theorem stepBytesLaws : Obligations.StepBytesLaws :=
  ⟨stepBytes_xor, stepBytes_zero_zero, fun c w _ h4 _ => stepBytes_seed_of_le c w h4,
    fun c w a b _ => stepBytes_add c w a b, fun c w n _ => stepBytes_eq_seq c w n⟩

end Sys2Proof.Machine
end

section
/-! The polynomial view of the byte step and of `StepBytes` (rules R140, R141). -/

namespace Sys2Proof.Machine

open Polynomial

theorem reflectedPoly_congr {n : Nat} {f g : Nat → Bool} (h : ∀ i < n, f i = g i) :
    reflectedPoly n f = reflectedPoly n g :=
  Finset.sum_congr rfl fun i hi => by rw [h i (Finset.mem_range.1 hi)]

/-- The polynomial of bits in two parts: the low bits have the higher powers (rule R14). -/
theorem reflectedPoly_add (m n : Nat) (f : Nat → Bool) :
    reflectedPoly (m + n) f = reflectedPoly m f * X ^ n + reflectedPoly n fun i => f (m + i) := by
  simp only [reflectedPoly, Finset.sum_range_add, Finset.sum_mul, ite_mul, zero_mul, ← pow_add]
  congr 1
  · refine Finset.sum_congr rfl fun i hi => ?_
    have hlt : i < m := Finset.mem_range.1 hi
    have hexp : m + n - 1 - i = m - 1 - i + n := by omega
    rw [hexp]
  · refine Finset.sum_congr rfl fun i _ => ?_
    have hexp : m + n - 1 - (m + i) = n - 1 - i := by omega
    rw [hexp]

/-- A byte as a word: its powers are 24 higher (rules R14, R140). -/
theorem poly32_setWidth_byte (b : Byte) : poly32 (b.setWidth 32) = poly8 b * X ^ 24 := by
  have hlow : reflectedPoly 8 (b.setWidth 32).getLsbD = poly8 b :=
    reflectedPoly_congr fun i hi => by simp [show i < 32 by omega]
  have hhigh : (reflectedPoly 24 fun i => (b.setWidth 32).getLsbD (8 + i)) = 0 :=
    Finset.sum_eq_zero fun i _ => by simp
  rw [poly32, reflectedPoly_add 8 24, hlow, hhigh, add_zero]

/-- Settles O13: eight rounds multiply by `x^8`, and the byte was added to the accumulator's low byte before them. -/
theorem crcBytePolynomial : Obligations.CrcBytePolynomial := by
  intro c b
  rw [crcByte_eq_iterate, poly32_crcBit_iterate, poly32_xor, poly32_setWidth_byte, add_mul, mul_assoc, ← pow_add]

/-- The polynomial of the low `n + 1` bytes: the lowest byte has the highest powers (rule R141). -/
theorem reflectedPoly_bytes_succ (w : Word64) (n : Nat) :
    reflectedPoly (8 * (n + 1)) w.getLsbD
      = poly8 (w.extractLsb' 0 8) * X ^ (8 * n) + reflectedPoly (8 * n) (w >>> 8).getLsbD := by
  have hlow : reflectedPoly 8 w.getLsbD = poly8 (w.extractLsb' 0 8) :=
    reflectedPoly_congr fun i hi => by simp [hi]
  have hrest : (fun i => w.getLsbD (8 + i)) = (w >>> 8).getLsbD := by
    funext i
    rw [BitVec.getLsbD_ushiftRight]
  rw [Nat.mul_succ, Nat.add_comm, reflectedPoly_add, hlow, hrest]

/-- Stepping `n` bytes multiplies by `x^(8n)`, adds the bytes times `x^32` and reduces mod `P` (rule R141). -/
theorem poly32_stepBytes (c : Word32) (w : Word64) (n : Nat) :
    poly32 (stepBytes c w n) = (poly32 c * X ^ (8 * n) + reflectedPoly (8 * n) w.getLsbD * X ^ 32) %ₘ crcGenerator := by
  induction n generalizing c w with
  | zero => simp [reflectedPoly, (modByMonic_eq_self_iff crcGenerator_monic).2 (degree_poly32_lt_crcGenerator c)]
  | succ n ih =>
    rw [stepBytes_succ, ih, crcBytePolynomial, add_modByMonic, modByMonic_mul_modByMonic, ← add_modByMonic,
      reflectedPoly_bytes_succ]
    refine congrArg (· %ₘ crcGenerator) ?_
    ring

/-- Settles O14, by induction on the number of bytes. -/
theorem stepBytesPolynomial : Obligations.StepBytesPolynomial := fun c w n _ _ => poly32_stepBytes c w n

end Sys2Proof.Machine
end

section
/-! A command that reads no memory, accepted by a ready engine: the results of its body, in its acceptance step or as its
started job runs on (rule R309; log 1). -/

namespace Sys2Proof.Machine

/-- The engine's state after a command that reads no memory: its body's results and `DONE`. -/
def State.computed (s : State) (i : Instr) : State := ((jobBody i (Memory.read s.mem) (Run.load s)).store s).complete

section
variable {i : Instr} {s : State}

/-- A job with no read runs on to its command's results. -/
theorem runJob_started_noRead (hm : readsMemory i = false) : runJob (s.started i) = s.computed i := by
  have hreads : readPlan (jobBody i) s = [] := readPlan_of_readsNoMemory hm s
  rw [runJob_started (by simp [hreads]) (by simp [hreads]), endJob_stable (startedJob_raced_of_reads hreads)]
  rfl

theorem exec_eager (hready : s.ready) (hc : commandCheck i s = none) (hm : readsMemory i = false) (he : s.eager = true) :
    exec i s = .next (s.computed i) := by
  rw [exec_eq_onCommand, onCommand_eager hready.not_blocked hc (by simp [he, hm]), ← runJob_started_noRead hm]
  rfl

theorem exec_deferred (hready : s.ready) (hc : commandCheck i s = none) (he : s.eager = false) :
    exec i s = .next (s.started i) := by
  rw [exec_eq_onCommand, onCommand_deferred hready.not_blocked hc (by simp [he])]
  rfl

end

/-- The STEP commands with the number of bytes that each steps (rules R144 to R147). -/
abbrev stepCommands : List (Instr × Nat) := [(.step1, 1), (.step2, 2), (.step4, 4), (.step8, 8)]

/-- The engine's state after `n` bytes of `DATA` are stepped into `ACC`, and `DONE`. -/
abbrev State.stepped (s : State) (n : Nat) : State :=
  { s with acc := stepBytes s.acc s.data n, status := { s.status with busy := false, done := true }, job := none }

/-- Storing the registers as they were loaded, but for `ACC`. -/
theorem Run.store_load_acc (s : State) (a : Word32) : { Run.load s with acc := a }.store s = { s with acc := a } := by
  simp [Run.store]

/-- Each STEP command has no check, reads no memory and steps `ACC` by its bytes of `DATA` (rules R144 to R147). -/
theorem stepCommands_computed {p : Instr × Nat} (hp : p ∈ stepCommands) (s : State) :
    commandCheck p.1 s = none ∧ readsMemory p.1 = false ∧ s.computed p.1 = s.stepped p.2 := by
  have hresult := congrArg State.complete (Run.store_load_acc s (stepBytes s.acc s.data p.2))
  simp only [List.mem_cons, List.not_mem_nil, or_false] at hp
  rcases hp with rfl | rfl | rfl | rfl
  all_goals exact ⟨rfl, rfl, hresult⟩

/-- Settles O11: the STEP commands read no memory, and their body's one result is `ACC`. -/
theorem stepCommandResults : Obligations.StepCommandResults := by
  refine ⟨by decide, by decide, by decide, by decide, fun s hready => ⟨fun he => ?eager, fun he p hp => ?deferred⟩⟩
  case eager =>
    have hstep : ∀ p ∈ stepCommands, exec p.1 s = .next (s.stepped p.2) := by
      intro p hp
      obtain ⟨hc, hm, hresult⟩ := stepCommands_computed hp s
      rw [exec_eager hready hc hm he, hresult]
    exact ⟨hstep (.step1, 1) (by simp), hstep (.step2, 2) (by simp), hstep (.step4, 4) (by simp),
      hstep (.step8, 8) (by simp)⟩
  case deferred =>
    obtain ⟨hc, hm, hresult⟩ := stepCommands_computed hp s
    exact ⟨exec_deferred hready hc he, (runJob_started_noRead hm).trans hresult⟩

end Sys2Proof.Machine
end

section
/-! A memory command over a buffer that answers with data and is stable: its started job runs on to the results of its
body (rule R309). -/

namespace Sys2Proof.Machine

section
variable {i : Instr} {s : State} {r : BusRead}

/-- The bytes a planned read reads are among those the command consumes (rule R89), and so are stable. -/
theorem State.stableBuffer.of_mem_readPlan (hstable : s.stableBuffer (consumedCount i s.addr.toNat s.len.toNat))
    (hr : r ∈ readPlan (jobBody i) s) : ∀ a ∈ r.bytes, s.plat.answer a = .data ∧ s.stale.contains a = false := by
  intro a ha
  rw [readPlan_eq] at hr
  have hrange : a ∈ List.range' s.addr.toNat (consumedCount i s.addr.toNat s.len.toNat) :=
    (commandReads_bytes i _ _).mem_iff.1 (List.mem_flatMap.2 ⟨r, hr, ha⟩)
  obtain ⟨k, hk, rfl⟩ := List.mem_range'.1 hrange
  rw [Nat.one_mul]
  exact hstable k hk

/-- A job over a stable buffer runs on to its command's results. -/
theorem runJob_started_stable (hstable : s.stableBuffer (consumedCount i s.addr.toNat s.len.toNat)) :
    runJob (s.started i) = s.computed i := by
  have hanswer : ∀ r ∈ readPlan (jobBody i) s, ∀ a ∈ r.bytes, s.plat.answer a = .data ∧ s.stale.contains a = false :=
    fun _ => State.stableBuffer.of_mem_readPlan hstable
  have hfailing : ∀ r ∈ readPlan (jobBody i) s, r.failing s.plat = [] := fun r hr =>
    List.filter_eq_nil_iff.2 fun a ha => by simp [(hanswer r hr a ha).1]
  have hsilent : ∀ r ∈ readPlan (jobBody i) s, r.hasSilent s.plat = false := fun r hr =>
    List.any_eq_false.2 fun a ha => by simp [(hanswer r hr a ha).1]
  have hraced : (startedJob i (jobBody i) s).raced = false :=
    List.any_eq_false.2 fun r hr => by
      rw [BusRead.unstable, Bool.not_eq_true, List.any_eq_false]
      intro a ha
      obtain ⟨hdata, hfresh⟩ := hanswer r hr a ha
      rw [hdata, hfresh]
      decide
  rw [runJob_started hfailing hsilent, endJob_stable hraced]
  rfl

/-- The results of a command that does not write the lane registers: `ACC`, and the cursor past the bytes consumed
(rules R52, R89). -/
theorem State.computed_of_keepsLanes (hl : lanesWritten i s.addr.toNat s.len.toNat = false) :
    s.computed i =
      { s with
        acc := (jobBody i (Memory.read s.mem) (Run.load s)).acc
        addr := s.addr + BitVec.ofNat 64 (consumedCount i s.addr.toNat s.len.toNat)
        len := s.len - BitVec.ofNat 64 (consumedCount i s.addr.toNat s.len.toNat)
        status := { s.status with busy := false, done := true }
        job := none } := by
  obtain ⟨h0, h1, h2, -⟩ := jobBody_lanes (Memory.read s.mem) (r := Run.load s) hl
  obtain ⟨haddr, hlen⟩ := jobBody_cursor i (Memory.read s.mem) (Run.load s)
  have hle := consumedCount_le i s.addr.toNat s.len.toNat
  have hlt : consumedCount i s.addr.toNat s.len.toNat < 2 ^ 64 := hle.trans_lt s.len.isLt
  simp only [Run.load_addr, Run.load_len, Run.load_crc0, Run.load_crc1, Run.load_crc2] at h0 h1 h2 haddr hlen
  simp only [State.computed, State.complete, Run.store, h0, h1, h2, haddr, hlen, BitVec.ofNat_add,
    ← BitVec.ofNat_sub_ofNat_of_le _ _ hlt hle, BitVec.ofNat_toNat, BitVec.setWidth_eq]

end

end Sys2Proof.Machine
end

section
/-! The statement about PROLOGUE (rule R163). -/

namespace Sys2Proof.Machine

/-- The prologue's loop extends `ACC` by the bytes of the widths whose bit is set (rule R161). -/
theorem foldl_prologueStep_acc (bytes : Bytes) (u : Nat) (ws : List Nat) (hws : ∀ w ∈ ws, w ≤ 8) (r : Run) :
    (ws.foldl (prologueStep bytes u) r).acc
      = seq r.acc (bytesFrom bytes r.addr (ws.filter fun w => u &&& w ≠ 0).sum) := by
  induction ws generalizing r with
  | nil => rfl
  | cons w ws ih =>
    obtain ⟨hw, hws⟩ := List.forall_mem_cons.1 hws
    rw [List.foldl_cons, ih hws, prologueStep, List.filter_cons]
    by_cases h : u &&& w = 0
    · simp [h]
    · simp [h, bytesFrom_add, seq_append, stepBytes_readLE bytes w _ _ hw]

/-- The prologue is its loop over the count of bytes consumed: a count of 0 has no bit set (rule R161). -/
theorem prologueBody_eq_foldl (bytes : Bytes) (r : Run) :
    prologueBody bytes r = [4, 2, 1].foldl (prologueStep bytes (prologueCount r.addr r.len)) r := by
  by_cases hzero : prologueCount r.addr r.len = 0
  · rw [prologueBody_none bytes hzero, hzero]
    rfl
  · have hlen : ¬ r.len < unalignedCount r.addr := fun hlt => hzero (if_pos hlt)
    have hcount : prologueCount r.addr r.len = unalignedCount r.addr := if_neg hlen
    rw [prologueBody, if_neg (by omega), hcount]

/-- `ACC` after the prologue is the sequential CRC of the bytes it consumes (rule R163). -/
theorem prologueBody_acc (bytes : Bytes) (r : Run) :
    (prologueBody bytes r).acc = seq r.acc (bytesFrom bytes r.addr (prologueCount r.addr r.len)) := by
  have hsum := tailWidths_sum _ (prologueCount_lt r.addr r.len)
  rw [tailWidths] at hsum
  rw [prologueBody_eq_foldl, foldl_prologueStep_acc bytes _ _ (by decide), hsum]

/-- Settles O20: the job runs on to its body's results, and the cursor ends at a word's start unless fewer than 8 bytes
were left. -/
theorem prologueResult : Obligations.PrologueResult := by
  intro s hready hc hstable
  have hacc := prologueBody_acc (Memory.read s.mem) (Run.load s)
  have hrun := (runJob_started_stable (i := .prologue) hstable).trans (State.computed_of_keepsLanes rfl)
  refine ⟨exec_started hready hc rfl, ?result, fun hodd => ?aligned⟩
  case result =>
    rw [hrun]
    simp only [jobBody, hacc]
    rfl
  case aligned =>
    have hend := prologueCount_aligned s.addr.toNat s.len.toNat
    have hle := prologueCount_le s.addr.toNat s.len.toNat
    rw [hrun] at hodd ⊢
    simp only [consumedCount] at hodd ⊢
    generalize prologueCount s.addr.toNat s.len.toNat = p at hodd hend hle ⊢
    bv_omega

end Sys2Proof.Machine
end

section
/-! The Combine Step through polynomials: its product of two accumulators and two ROM words is what the bytes of the later
lanes do to them, so that Combine is the sequential CRC of its block (rules R210 to R212). -/

namespace Sys2Proof.Machine

open Polynomial

/-! ### A word and its polynomial -/

/-- A word's bits are the coefficients of its polynomial (rule R14). -/
theorem coeff_reflectedPoly (n : Nat) (f : Nat → Bool) {i : Nat} (h : i < n) :
    (reflectedPoly n f).coeff (n - 1 - i) = if f i then 1 else 0 := by
  rw [reflectedPoly, finsetSum_coeff, Finset.sum_eq_single i]
  · split <;> simp
  · intro j hj hne
    have hexp : n - 1 - i ≠ n - 1 - j := by
      have := Finset.mem_range.1 hj
      omega
    split <;> simp [coeff_X_pow, hexp]
  · exact fun hnot => absurd (Finset.mem_range.2 h) hnot

theorem poly32_injective : Function.Injective poly32 := by
  intro a b hab
  refine BitVec.eq_of_getLsbD_eq fun i hi => ?_
  have hcoeff := congrArg (fun p => p.coeff (32 - 1 - i)) hab
  simp only [poly32, coeff_reflectedPoly 32 _ hi] at hcoeff
  cases ha : a.getLsbD i <;> cases hb : b.getLsbD i
  case false.false | true.true => rfl
  case false.true | true.false => simp [ha, hb] at hcoeff

theorem poly64_xor (a b : Word64) : poly64 (a ^^^ b) = poly64 a + poly64 b := by
  simp only [poly64, ← reflectedPoly_xor]
  exact reflectedPoly_congr fun i _ => BitVec.getLsbD_xor

/-! ### The carry-less product -/

/-- A 32-bit factor of `Clmul`, moved `i` places up and cut to 64 bits: its bits are at `32 - i` powers more
(rules R14, R210). -/
theorem poly64_shifted (a : Word32) {i : Nat} (h : i ≤ 32) :
    poly64 (((a.setWidth 64).setWidth 128 <<< i).setWidth 64) = poly32 a * X ^ (32 - i) := by
  generalize hshifted : ((a.setWidth 64).setWidth 128 <<< i).setWidth 64 = v
  have hwidth : i + (32 + (32 - i)) = 64 := by omega
  have hbelow : reflectedPoly i v.getLsbD = 0 :=
    Finset.sum_eq_zero fun k hk => by simp [← hshifted, Finset.mem_range.1 hk]
  have hword : (reflectedPoly 32 fun k => v.getLsbD (i + k)) = poly32 a :=
    reflectedPoly_congr fun k hk => by simp [← hshifted, show i + k < 64 by omega]
  have habove : (reflectedPoly (32 - i) fun k => v.getLsbD (i + (32 + k))) = 0 :=
    Finset.sum_eq_zero fun k hk => by simp [← hshifted]
  calc reflectedPoly 64 v.getLsbD
    _ = reflectedPoly (i + (32 + (32 - i))) v.getLsbD := by rw [hwidth]
    _ = poly32 a * X ^ (32 - i) := by
      rw [reflectedPoly_add, reflectedPoly_add, hbelow, hword, habove, zero_mul, zero_add, add_zero]

/-- The sum of chosen words, as `Clmul` forms it, cut to 64 bits (rule R210). -/
theorem poly64_foldl_xor (n : Nat) (chosen : Nat → Bool) (f : Nat → BitVec 128) :
    poly64 (((List.range n).foldl (fun p i => if chosen i then p ^^^ f i else p) 0#128).setWidth 64)
      = ∑ i ∈ Finset.range n, if chosen i then poly64 ((f i).setWidth 64) else 0 := by
  induction n with
  | zero => simp [poly64, reflectedPoly]
  | succ n ih =>
    rw [List.range_succ, List.foldl_append, Finset.sum_range_succ, ← ih, List.foldl_cons, List.foldl_nil]
    split
    · rw [BitVec.setWidth_xor, poly64_xor]
    · rw [add_zero]

/-- The carry-less product of two 32-bit words is the product of their polynomials, one power up (rules R14, R210). -/
theorem poly64_clmul (a b : Word32) :
    poly64 ((clmul (a.setWidth 64) (b.setWidth 64)).setWidth 64) = poly32 a * poly32 b * X := by
  have hhigh : ∀ i ∈ Finset.range 32, (if (b.setWidth 64).getLsbD (32 + i)
      then poly64 (((a.setWidth 64).setWidth 128 <<< (32 + i)).setWidth 64) else 0) = 0 :=
    fun i _ => by simp
  have hlow : ∀ i ∈ Finset.range 32, (if (b.setWidth 64).getLsbD i
      then poly64 (((a.setWidth 64).setWidth 128 <<< i).setWidth 64) else 0)
        = poly32 a * (if b.getLsbD i then X ^ (32 - 1 - i) else 0) * X := by
    intro i hi
    have hlt : i < 32 := Finset.mem_range.1 hi
    have hbit : (b.setWidth 64).getLsbD i = b.getLsbD i := by simp [show i < 64 by omega]
    have hexp : 32 - i = 32 - 1 - i + 1 := by omega
    rw [poly64_shifted a hlt.le, hbit, hexp, pow_succ]
    split
    · rw [mul_assoc]
    · simp
  rw [clmul, poly64_foldl_xor, Finset.sum_range_add _ 32 32, Finset.sum_eq_zero hhigh, add_zero,
    Finset.sum_congr rfl hlow, ← Finset.sum_mul, ← Finset.mul_sum]
  rfl

/-! ### The product of the Combine Step -/

/-- 64 bits whose upper half is zero are their lower half, extended. -/
theorem extractLsb'_eq_setWidth {w k : Nat} {x : BitVec w} (h : x.extractLsb' (k + 32) 32 = 0) :
    x.extractLsb' k 64 = (x.extractLsb' k 32).setWidth 64 := by
  ext i hi
  by_cases hlow : i < 32
  · simp [hlow]
  · have hbit := congrArg (·.getLsbD (i - 32)) h
    have hplace : k + 32 + (i - 32) = k + i := by omega
    have hlt : i - 32 < 32 := by omega
    simpa [hplace, hlow, hlt] using hbit

/-- The two factors that Combine takes from a ROM entry are the table's words (rules R45, R211). -/
theorem romEntry_factors (i : Nat) :
    (romEntry i).extractLsb' 0 64 = (romTable.getD i (0, 0)).1.setWidth 64
      ∧ (romEntry i).extractLsb' 64 64 = (romTable.getD i (0, 0)).2.setWidth 64 := by
  obtain ⟨hlow, hlowZero, hhigh, hhighZero⟩ := romEntry_words i
  rw [extractLsb'_eq_setWidth hlowZero, extractLsb'_eq_setWidth hhighZero, hlow, hhigh]
  exact ⟨rfl, rfl⟩

/-- Combine's product, stepped in as data, takes lane 0 through the `128n` bits of the two lanes after it and lane 1
through the `64n` bits of the one (rules R45, R211). -/
theorem stepBytes_combineProduct (c0 c1 : Word32) {n : Nat} (h1 : 1 ≤ n) (h128 : n ≤ 128) :
    stepBytes 0 (combineProduct c0 c1 n) 8 = crcBit^[128 * n] c0 ^^^ crcBit^[64 * n] c1 := by
  obtain ⟨i, rfl⟩ : ∃ i, n = i + 1 := ⟨n - 1, by omega⟩
  obtain ⟨hfactor0, hfactor1⟩ := romEntry_factors i
  obtain ⟨hpower0, hpower1⟩ := poly32_romTable i (by omega)
  have hzero : poly32 0 = 0 := by simp [poly32, reflectedPoly]
  have hproduct : poly64 (combineProduct c0 c1 (i + 1)) * X ^ 32
      = poly32 (romTable.getD i (0, 0)).1 * (poly32 c0 * X ^ 33)
        + poly32 (romTable.getD i (0, 0)).2 * (poly32 c1 * X ^ 33) := by
    rw [combineProduct, Nat.add_sub_cancel, hfactor0, hfactor1, BitVec.setWidth_xor, poly64_xor, poly64_clmul, poly64_clmul]
    ring
  have hexp0 : X ^ (128 * i + 95) * (poly32 c0 * X ^ 33) = poly32 c0 * X ^ (128 * (i + 1)) := by ring
  have hexp1 : X ^ (64 * i + 31) * (poly32 c1 * X ^ 33) = poly32 c1 * X ^ (64 * (i + 1)) := by ring
  apply poly32_injective
  calc poly32 (stepBytes 0 (combineProduct c0 c1 (i + 1)) 8)
    _ = (poly64 (combineProduct c0 c1 (i + 1)) * X ^ 32) %ₘ crcGenerator := by
      rw [poly32_stepBytes, hzero, zero_mul, zero_add, poly64]
    _ = (poly32 c0 * X ^ (128 * (i + 1))) %ₘ crcGenerator + (poly32 c1 * X ^ (64 * (i + 1))) %ₘ crcGenerator := by
      rw [hproduct, add_modByMonic, hpower0, hpower1, modByMonic_mul_modByMonic, modByMonic_mul_modByMonic, hexp0, hexp1]
    _ = poly32 (crcBit^[128 * (i + 1)] c0 ^^^ crcBit^[64 * (i + 1)] c1) := by
      rw [poly32_xor, poly32_crcBit_iterate, poly32_crcBit_iterate]

/-! ### Lanes joined -/

/-- The sequential CRC in its seed and its bytes apart: the seed goes through as many rounds as the bytes have bits
(rule R142). -/
theorem seq_eq_xor (c : Word32) (b : List Byte) : seq c b = crcBit^[8 * b.length] c ^^^ seq 0 b := by
  induction b generalizing c with
  | nil => simp
  | cons x b ih =>
    have hbyte : crcByte c x = crcBit^[8] c ^^^ crcByte 0 x := by
      simp [crcByte_eq_iterate, crcBit_iterate_xor]
    rw [seq_cons, ih, hbyte, crcBit_iterate_xor, seq_cons, ih (crcByte 0 x), ← Function.iterate_add_apply,
      BitVec.xor_assoc, List.length_cons, Nat.mul_succ]

theorem bytesFrom_length (bytes : Bytes) (a n : Nat) : (bytesFrom bytes a n).length = n := by
  simp [bytesFrom]

/-- The CRC of a run of bytes in two parts: the first part's goes through the bits of the second, which starts at zero. -/
theorem seq_bytesFrom_add (bytes : Bytes) (c : Word32) (a m n : Nat) :
    seq c (bytesFrom bytes a (m + n))
      = crcBit^[8 * n] (seq c (bytesFrom bytes a m)) ^^^ seq 0 (bytesFrom bytes (a + m) n) := by
  rw [bytesFrom_add, seq_append, seq_eq_xor, bytesFrom_length]

/-- The Combine Step takes lanes 0 and 1 through the bits of the lanes after them, and steps lane 2 by its last word
(rule R211). -/
theorem combine_eq_xor (c0 c1 c2 : Word32) (w : Word64) {n : Nat} (h1 : 1 ≤ n) (h128 : n ≤ 128) :
    combine c0 c1 c2 w n = crcBit^[128 * n] c0 ^^^ (crcBit^[64 * n] c1 ^^^ stepBytes c2 w 8) := by
  rw [← BitVec.xor_assoc, ← stepBytes_combineProduct c0 c1 h1 h128, ← stepBytes_xor, BitVec.ofNat_eq_ofNat,
    BitVec.zero_xor, combine]

/-- Combine is the sequential CRC of its block's `24n` bytes (rule R212). -/
theorem combine_eq_seq (bytes : Bytes) (a : Nat) (c : Word32) {n : Nat} (h1 : 1 ≤ n) (h128 : n ≤ 128) :
    combine (seq c (bytesFrom bytes a (8 * n))) (seq 0 (bytesFrom bytes (a + 8 * n) (8 * n)))
        (seq 0 (bytesFrom bytes (a + 16 * n) (8 * (n - 1)))) (readLE bytes (a + 8 * (3 * n - 1)) 8) n
      = seq c (bytesFrom bytes a (24 * n)) := by
  have hheld : a + 8 * (3 * n - 1) = a + 16 * n + 8 * (n - 1) := by omega
  have hwhole : 8 * (n - 1) + 8 = 8 * n := by omega
  have hlane2 : a + 8 * n + 8 * n = a + 16 * n := by omega
  have hblock : 24 * n = 8 * n + (8 * n + 8 * n) := by omega
  have hbits0 : 8 * (8 * n + 8 * n) = 128 * n := by omega
  have hbits1 : 8 * (8 * n) = 64 * n := by omega
  rw [combine_eq_xor _ _ _ _ h1 h128, hheld, stepBytes_readLE _ 8 _ _ le_rfl, ← seq_append, ← bytesFrom_add, hwhole,
    hblock, seq_bytesFrom_add, seq_bytesFrom_add _ 0, hbits0, hbits1, hlane2]

end Sys2Proof.Machine
end

section
/-! The lanes of striping, and with them its result (rules R180 to R186). -/

namespace Sys2Proof.Machine

/-! ### The lane accumulators -/

/-- A lane that has stepped `m` of its words has stepped their `8m` bytes; one word more is the next 8. -/
theorem stepBytes_lane (bytes : Bytes) (c : Word32) (a m : Nat) :
    stepBytes (seq c (bytesFrom bytes a (8 * m))) (readLE bytes (a + 8 * m) 8) 8
      = seq c (bytesFrom bytes a (8 * (m + 1))) := by
  rw [stepBytes_readLE _ 8 _ _ le_rfl, ← seq_append, ← bytesFrom_add, Nat.mul_succ]

/-- One loop-unit steps each lane by its word, lane 2 not by its last (rules R181, R184). -/
theorem loopUnit_crc (bytes : Bytes) (a n i : Nat) (r : Run) :
    (loopUnit bytes a n r i).crc0 = stepBytes r.crc0 (readLE bytes (laneAddr a n 0 i) 8) 8
      ∧ (loopUnit bytes a n r i).crc1 = stepBytes r.crc1 (readLE bytes (laneAddr a n 1 i) 8) 8
      ∧ (loopUnit bytes a n r i).crc2
        = if i < n - 1 then stepBytes r.crc2 (readLE bytes (laneAddr a n 2 i) 8) 8 else r.crc2 := by
  unfold loopUnit lane2Step
  split <;> exact ⟨rfl, rfl, rfl⟩

/-- After `m` of a block's loop-units each lane holds the sequential CRC of its first `m` words, lane 2 of all but its last
(rules R180, R181). -/
theorem foldl_loopUnit_crc (bytes : Bytes) (a n m : Nat) (r : Run) :
    ((List.range m).foldl (loopUnit bytes a n) r).crc0 = seq r.crc0 (bytesFrom bytes a (8 * m))
      ∧ ((List.range m).foldl (loopUnit bytes a n) r).crc1 = seq r.crc1 (bytesFrom bytes (a + 8 * n) (8 * m))
      ∧ ((List.range m).foldl (loopUnit bytes a n) r).crc2
        = seq r.crc2 (bytesFrom bytes (a + 16 * n) (8 * min m (n - 1))) := by
  induction m with
  | zero => simp
  | succ m ih =>
    obtain ⟨ih0, ih1, ih2⟩ := ih
    obtain ⟨h0, h1, h2⟩ := loopUnit_crc bytes a n m ((List.range m).foldl (loopUnit bytes a n) r)
    have haddr0 : laneAddr a n 0 m = a + 8 * m := by unfold laneAddr; omega
    have haddr1 : laneAddr a n 1 m = a + 8 * n + 8 * m := by unfold laneAddr; omega
    have haddr2 : laneAddr a n 2 m = a + 16 * n + 8 * m := by unfold laneAddr; omega
    rw [List.range_succ, List.foldl_append, List.foldl_cons, List.foldl_nil]
    refine ⟨?lane0, ?lane1, ?lane2⟩
    case lane0 => rw [h0, ih0, haddr0, stepBytes_lane]
    case lane1 => rw [h1, ih1, haddr1, stepBytes_lane]
    case lane2 =>
      rw [h2, ih2, haddr2]
      split
      · next hlt => rw [min_eq_left hlt.le, min_eq_left hlt, stepBytes_lane]
      · next hge => rw [min_eq_right (not_lt.1 hge), min_eq_right (by omega)]

/-- The lanes before a block's merge hold the sequential CRC of their words, lane 2 but for its last (rules R180, R181). -/
theorem stripeLanes_crc (bytes : Bytes) (a n : Nat) (r : Run) :
    (stripeLanes bytes a n r).crc0 = seq r.crc0 (bytesFrom bytes a (8 * n))
      ∧ (stripeLanes bytes a n r).crc1 = seq r.crc1 (bytesFrom bytes (a + 8 * n) (8 * n))
      ∧ (stripeLanes bytes a n r).crc2 = seq r.crc2 (bytesFrom bytes (a + 16 * n) (8 * (n - 1))) := by
  have hall := foldl_loopUnit_crc bytes a n n r
  rwa [min_eq_right (Nat.sub_le n 1)] at hall

/-- A block that starts with lanes 1 and 2 zero leaves the sequential CRC of its bytes in lane 0, and lanes 1 and 2
zero (rules R184, R212). -/
theorem stripeBlock_crc (bytes : Bytes) {n : Nat} {r : Run} (h1 : 1 ≤ n) (h128 : n ≤ 128) (hcrc1 : r.crc1 = 0)
    (hcrc2 : r.crc2 = 0) :
    (stripeBlock bytes n r).crc0 = seq r.crc0 (bytesFrom bytes r.addr (24 * n))
      ∧ (stripeBlock bytes n r).crc1 = 0 ∧ (stripeBlock bytes n r).crc2 = 0 := by
  obtain ⟨h0, hlane1, hlane2⟩ := stripeLanes_crc bytes r.addr n r
  refine ⟨?_, rfl, rfl⟩
  rw [← combine_eq_seq bytes r.addr r.crc0 h1 h128, ← h0, ← hcrc1, ← hlane1, hcrc1, ← hcrc2, ← hlane2]
  rfl

/-- The blocks leave the sequential CRC of all their bytes in lane 0 (rules R182, R184). -/
theorem stripeLoop_crc (bytes : Bytes) {fuel loops : Nat} {r : Run} (h : loops ≤ fuel) (hcrc1 : r.crc1 = 0)
    (hcrc2 : r.crc2 = 0) :
    (stripeLoop bytes fuel loops r).crc0 = seq r.crc0 (bytesFrom bytes r.addr (24 * loops))
      ∧ (stripeLoop bytes fuel loops r).crc1 = 0 ∧ (stripeLoop bytes fuel loops r).crc2 = 0 := by
  induction fuel generalizing loops r with
  | zero =>
    obtain rfl : loops = 0 := by omega
    exact ⟨rfl, hcrc1, hcrc2⟩
  | succ fuel ih =>
    unfold stripeLoop
    split
    · next hz => subst hz; exact ⟨rfl, hcrc1, hcrc2⟩
    · have hsplit : 24 * loops = 24 * min loops 128 + 24 * (loops - min loops 128) := by omega
      obtain ⟨hblock0, hblock1, hblock2⟩ :=
        stripeBlock_crc bytes (n := min loops 128) (by omega) (by omega) hcrc1 hcrc2
      obtain ⟨h0, h1, h2⟩ := ih (loops := loops - min loops 128) (by omega) hblock1 hblock2
      obtain ⟨haddr, -⟩ := stripeBlock_cursor bytes (min loops 128) r
      refine ⟨?_, h1, h2⟩
      rw [h0, hblock0, haddr, hsplit, bytesFrom_add, seq_append]

/-- At or above the threshold striping leaves the sequential CRC of the whole strides in `ACC` and lane 0, and lanes 1
and 2 zero (rules R183, R184, R186). -/
theorem stripeBody_crc (bytes : Bytes) {r : Run} (h : 96 ≤ r.len) :
    (stripeBody bytes r).acc = seq r.acc (bytesFrom bytes r.addr (24 * (r.len / 24)))
      ∧ (stripeBody bytes r).crc0 = seq r.acc (bytesFrom bytes r.addr (24 * (r.len / 24)))
      ∧ (stripeBody bytes r).crc1 = 0 ∧ (stripeBody bytes r).crc2 = 0 := by
  obtain ⟨h0, h1, h2⟩ := stripeLoop_crc bytes (fuel := r.len / 24) (loops := r.len / 24) (r := stripeStart r) le_rfl rfl rfl
  rw [stripeBody, if_neg (not_lt.2 h)]
  exact ⟨h0, h0, h1, h2⟩

/-! ### The statements about STRIPE -/

/-- Settles O21: the job runs on to its body's results, lane 0's CRC and the cursor past the whole strides; its reads are
a permutation of the strides' words. -/
theorem stripeResult : Obligations.StripeResult := by
  intro s hready hc hlen
  have hcount : stripeCount s.len.toNat = 24 * (s.len.toNat / 24) := if_neg (not_lt.2 hlen)
  have hplan : readPlan stripeBody s = stripeReads s.addr.toNat s.len.toNat := readPlan_eq .stripe s
  refine ⟨fun hstable => ⟨exec_started hready hc rfl, ?result⟩, fun r hr => ?width, ?bytes⟩
  case result =>
    obtain ⟨hacc, h0, h1, h2⟩ := stripeBody_crc (Memory.read s.mem) (r := Run.load s) hlen
    obtain ⟨haddr, hrest⟩ := stripeBody_cursor (Memory.read s.mem) (Run.load s)
    have hmod : s.len.toNat - 24 * (s.len.toNat / 24) = s.len.toNat % 24 := by omega
    simp only [Run.load_acc, Run.load_addr, Run.load_len, hcount, hmod] at hacc h0 haddr hrest
    rw [runJob_started_stable (i := .stripe) (by simpa only [consumedCount, hcount] using hstable)]
    simp only [State.computed, jobBody, State.complete, Run.store, hacc, h0, h1, h2, haddr, hrest, BitVec.ofNat_add,
      BitVec.ofNat_toNat, BitVec.setWidth_eq, State.buffer]
  case width =>
    rw [hplan] at hr
    exact (mem_wordReads ((stripeReads_perm _ _).mem_iff.1 hr)).1
  case bytes =>
    rw [hplan, ← hcount]
    exact stripeReads_bytes _ _

/-- Settles O22: a job with no byte to consume runs on to its body's results, and the body does nothing. -/
theorem stripeBelowThreshold : Obligations.StripeBelowThreshold := by
  intro s hready hc hlen
  have hcount : consumedCount .stripe s.addr.toNat s.len.toNat = 0 := if_pos hlen
  have hbody : stripeBody (Memory.read s.mem) (Run.load s) = Run.load s := stripeBody_below _ hlen
  have hrun : runJob (s.started .stripe) = s.computed .stripe :=
    runJob_started_stable fun k hk => by omega
  refine ⟨exec_started hready hc rfl, ?_⟩
  rw [hrun, State.computed, jobBody, hbody, Run.store_load]
  rfl

end Sys2Proof.Machine
end

section
/-! The laws of the carry-less product, from the sum over GF(2) that each of its bits is (rule R210). -/

namespace Sys2Proof.Machine

/-- A bit as an element of GF(2). -/
def gf2 (b : Bool) : ZMod 2 := if b then 1 else 0

theorem gf2_injective : Function.Injective gf2 := by decide

@[simp] theorem gf2_false : gf2 false = 0 := rfl

@[simp] theorem gf2_true : gf2 true = 1 := rfl

theorem gf2_xor (x y : Bool) : gf2 (x ^^ y) = gf2 x + gf2 y := by
  revert x y
  decide

/-- Bit `m` of a carry-less product: the sum over GF(2) of the products of the operands' bits whose places add up
to `m`. -/
def productBit (a b : Word64) (m : Nat) : ZMod 2 :=
  ∑ i ∈ Finset.range 64, ∑ j ∈ Finset.range 64, if i + j = m then gf2 (a.getLsbD i) * gf2 (b.getLsbD j) else 0

theorem productBit_comm (a b : Word64) (m : Nat) : productBit a b m = productBit b a m := by
  rw [productBit, Finset.sum_comm]
  simp only [productBit, Nat.add_comm, mul_comm]

theorem productBit_xor (a b c : Word64) (m : Nat) : productBit a (b ^^^ c) m = productBit a b m + productBit a c m := by
  simp only [productBit, ← Finset.sum_add_distrib]
  refine Finset.sum_congr rfl fun i _ => Finset.sum_congr rfl fun j _ => ?_
  split
  · rw [BitVec.getLsbD_xor, gf2_xor, mul_add]
  · rw [add_zero]

theorem getLsbD_of_toNat_lt {x : Word64} {n k : Nat} (hx : x.toNat < 2 ^ n) (hk : n ≤ k) : x.getLsbD k = false :=
  Nat.testBit_eq_false_of_lt (hx.trans_le (Nat.pow_le_pow_right (by decide) hk))

/-- Operands of 32 bits have no two bits whose places add up to 63 or more. -/
theorem productBit_eq_zero {a b : Word64} {m : Nat} (ha : a.toNat < 2 ^ 32) (hb : b.toNat < 2 ^ 32) (hm : 63 ≤ m) :
    productBit a b m = 0 := by
  refine Finset.sum_eq_zero fun i _ => Finset.sum_eq_zero fun j _ => ?_
  split
  · next hplace =>
    rcases (by omega : 32 ≤ i ∨ 32 ≤ j) with hi | hj
    · rw [getLsbD_of_toNat_lt ha hi, gf2_false, zero_mul]
    · rw [getLsbD_of_toNat_lt hb hj, gf2_false, mul_zero]
  · rfl

/-- A bit of a sum of chosen words, as `Clmul` forms it (rule R210). -/
theorem gf2_foldl_xor (n m : Nat) (chosen : Nat → Bool) (f : Nat → BitVec 128) :
    gf2 (((List.range n).foldl (fun p j => if chosen j then p ^^^ f j else p) 0#128).getLsbD m)
      = ∑ j ∈ Finset.range n, gf2 ((f j).getLsbD m) * gf2 (chosen j) := by
  induction n with
  | zero => simp
  | succ n ih =>
    rw [List.range_succ, List.foldl_append, Finset.sum_range_succ, ← ih, List.foldl_cons, List.foldl_nil]
    cases chosen n
    case false => rw [gf2_false, mul_zero, add_zero, if_neg Bool.false_ne_true]
    case true => rw [gf2_true, mul_one, if_pos rfl, BitVec.getLsbD_xor, gf2_xor]

/-- A bit of a factor of `Clmul` moved `j` places up: the factor's bit `j` places below. -/
theorem gf2_shifted (a : Word64) {j m : Nat} (hm : m < 128) :
    gf2 ((a.setWidth 128 <<< j).getLsbD m) = ∑ i ∈ Finset.range 64, if i + j = m then gf2 (a.getLsbD i) else 0 := by
  by_cases hj : j ≤ m
  · have hplace (i : Nat) : i + j = m ↔ i = m - j := by omega
    simp only [hplace, Finset.sum_ite_eq', Finset.mem_range]
    split
    · simp [hm, hj.not_gt]
    · next hge => simp [BitVec.getLsbD_of_ge a (m - j) (by omega)]
  · have hplace (i : Nat) : ¬ i + j = m := by omega
    simp [hplace, not_le.1 hj]

/-- The bits of the carry-less product (rule R210). -/
theorem gf2_clmul (a b : Word64) {m : Nat} (hm : m < 128) : gf2 ((clmul a b).getLsbD m) = productBit a b m := by
  rw [clmul, gf2_foldl_xor, productBit, Finset.sum_comm]
  refine Finset.sum_congr rfl fun j _ => ?_
  rw [gf2_shifted a hm, Finset.sum_mul]
  simp only [ite_mul, zero_mul]

/-- Settles O16: each law holds of the sums that the product's bits are. -/
theorem carrylessProductLaws : Obligations.CarrylessProductLaws := by
  refine ⟨fun a b => ?comm, fun a b c => ?xor, fun a b ha hb => ?below⟩
  case comm =>
    refine BitVec.eq_of_getLsbD_eq fun m hm => gf2_injective ?_
    rw [gf2_clmul a b hm, gf2_clmul b a hm, productBit_comm]
  case xor =>
    refine BitVec.eq_of_getLsbD_eq fun m hm => gf2_injective ?_
    rw [BitVec.getLsbD_xor, gf2_xor, gf2_clmul a _ hm, gf2_clmul a b hm, gf2_clmul a c hm, productBit_xor]
  case below =>
    refine Nat.lt_pow_two_of_testBit _ fun m hm => ?_
    by_cases hlt : m < 128
    · refine gf2_injective ?_
      rw [BitVec.testBit_toNat, gf2_clmul a b hlt, productBit_eq_zero ha hb hm, gf2_false]
    · rw [BitVec.testBit_toNat, BitVec.getLsbD_of_ge _ _ (not_lt.1 hlt)]

end Sys2Proof.Machine
end

section
/-! The statements about the Combine Step and its command (rules R212, R213). -/

namespace Sys2Proof.Machine

/-- Settles O18: lanes 0 and 1 go through the bits of the lanes after them, and lane 2 steps its last word. -/
theorem combineEqualsSequential : Obligations.CombineEqualsSequential := fun bytes a _ c h1 h128 =>
  combine_eq_seq bytes a c h1 h128

/-- COMBINE's word has its opcode, its block size as the immediate, and no reserved bit (rules R111, R213). -/
theorem combine_word {n : Nat} (hn : n ≤ 255) :
    0x00000012#32 ||| (BitVec.ofNat 32 n <<< 8) = encode (.combine n) := by
  have hfields : encode (.combine n) = (0#16 : BitVec 16) ++ BitVec.ofNat 8 n ++ 0x12#8 := rfl
  have h8 : n < 256 := by omega
  have h32 : n < 4294967296 := by omega
  have hshift : n <<< 8 < 4294967296 := by
    rw [Nat.shiftLeft_eq]
    omega
  refine BitVec.eq_of_toNat_eq ?_
  rw [hfields, BitVec.toNat_append, BitVec.toNat_append, BitVec.toNat_or, BitVec.toNat_shiftLeft, Nat.lor_comm]
  simp [Nat.mod_eq_of_lt h8, Nat.mod_eq_of_lt h32, Nat.mod_eq_of_lt hshift]

/-- COMBINE's results: the merge in `ACC` and lane 0, and lanes 1 and 2 zero (rule R213). -/
theorem computed_combine (n : Nat) (s : State) :
    s.computed (.combine n) =
      { s with
        acc := combine s.crc0 s.crc1 s.crc2 s.data n
        crc0 := combine s.crc0 s.crc1 s.crc2 s.data n
        crc1 := 0
        crc2 := 0
        status := { s.status with busy := false, done := true }
        job := none } := by
  simp [State.computed, jobBody, bodyCombine, Run.store, State.complete]

/-- Settles O19: COMBINE reads no memory, so its job runs on to its body's results; its check is the range of the block
size. -/
theorem combineResult : Obligations.CombineResult := by
  intro n s t ht
  rw [← computed_combine] at ht
  subst ht
  have hcheck (h1 : 1 ≤ n) (h128 : n ≤ 128) : commandCheck (.combine n) s = none := if_neg (by omega)
  refine ⟨fun hn => ?word, fun h1 h128 hready he => ?eager, fun h1 h128 hready he => ?deferred,
    fun hn hready => ?fault⟩
  case word => exact (congrArg decodeWord (combine_word hn)).trans (decodeOfEncode _ (decide_eq_true hn))
  case eager => exact exec_eager hready (hcheck h1 h128) rfl he
  case deferred => exact ⟨exec_deferred hready (hcheck h1 h128) he, runJob_started_noRead rfl⟩
  case fault =>
    have hc : commandCheck (.combine n) s = some .bsize := if_pos hn
    rw [exec_eq_onCommand, onCommand_fault hready.not_blocked hc, accept_raiseFault]

end Sys2Proof.Machine
end

section
/-! The tail read and the statements about the epilogue (rules R230 to R234). -/

namespace Sys2Proof.Machine

/-! ### The word that a read assembles -/

/-- Two adjacent reads assemble the word of one (rule R87). -/
theorem readLE_add (bytes : Bytes) (a m n : Nat) :
    readLE bytes a (m + n) = readLE bytes a m ||| readLE bytes (a + m) n <<< (8 * m) := by
  induction m generalizing a with
  | zero => simp [readLE]
  | succ m ih =>
    have haddr : a + 1 + m = a + (m + 1) := by omega
    rw [Nat.add_right_comm, readLE, readLE, ih, haddr, BitVec.shiftLeft_or_distrib, ← BitVec.shiftLeft_add,
      BitVec.or_assoc, Nat.mul_succ]

/-- Byte `k` of a read is the byte at its address plus `k` (rule R87). -/
theorem readLE_byte (bytes : Bytes) {a n k : Nat} (hk : k < n) (hn : n ≤ 8) :
    (readLE bytes a n).extractLsb' (8 * k) 8 = bytes (a + k) := by
  induction n generalizing a k with
  | zero => omega
  | succ n ih =>
    cases k with
    | zero => exact readLE_low bytes a n
    | succ k =>
      have haddr : a + 1 + k = a + (k + 1) := by omega
      rw [← haddr, ← ih (a := a + 1) (k := k) (by omega) (by omega), ← readLE_shift bytes a n (by omega)]
      refine BitVec.eq_of_getLsbD_eq fun i hi => ?_
      have hplace : 8 * (k + 1) + i = 8 + (8 * k + i) := by omega
      simp [hi, hplace]

/-- A read has no byte past its width. -/
theorem readLE_shift_width (bytes : Bytes) (a n : Nat) : readLE bytes a n >>> (8 * n) = 0 :=
  BitVec.eq_of_getLsbD_eq fun i _ => by
    rw [BitVec.getLsbD_ushiftRight, readLE_high bytes n a _ (Nat.le_add_right _ _)]
    exact BitVec.getLsbD_zero.symm

/-- The mask keeps the bytes of a read of its count (rule R231). -/
theorem readLE_and_tailMask (bytes : Bytes) (a : Nat) {n : Nat} (hn : n ≤ 8) :
    readLE bytes a n &&& tailMask n = readLE bytes a n := by
  refine BitVec.eq_of_getLsbD_eq fun i hi => ?_
  rw [BitVec.getLsbD_and]
  by_cases hlow : i < 8 * n
  · have hmask : (tailMask n).getLsbD i = true := by
      have hplace : 8 * (8 - n) + i < 64 := by omega
      rw [tailMask, BitVec.getLsbD_ushiftRight]
      exact (BitVec.getLsbD_allOnes (v := 64)).trans (decide_eq_true hplace)
    rw [hmask, Bool.and_true]
  · rw [readLE_high bytes n a i (not_lt.1 hlow), Bool.false_and]

/-! ### The tail read -/

/-- Where the widths so far have assembled one read's word, so do the set widths that follow (rule R231). -/
theorem foldl_tailStep_word (bytes : Bytes) (a n : Nat) (ws : List Nat) {t : TailRead}
    (h : t.word = readLE bytes a t.offset) :
    (ws.foldl (tailStep bytes a n) t).word
      = readLE bytes a (t.offset + (ws.filter fun w => n &&& w ≠ 0).sum) := by
  induction ws generalizing t with
  | nil => exact h
  | cons w ws ih =>
    rw [List.foldl_cons, List.filter_cons]
    by_cases hw : n &&& w = 0
    · simpa [tailStep, hw] using ih h
    · have hnext : (tailStep bytes a n t w).word = readLE bytes a (t.offset + w) := by
        simp [tailStep, hw, h, readLE_add]
      have hoffset : (tailStep bytes a n t w).offset = t.offset + w := by simp [tailStep, hw]
      rw [ih (hoffset ▸ hnext), hoffset]
      simp [hw, Nat.add_assoc]

/-- The tail's reads assemble the word of one read of all the bytes left (rule R231). -/
theorem tailReads_word (bytes : Bytes) (a : Nat) {n : Nat} (hn : n < 8) :
    (tailReads bytes a n).word = readLE bytes a n := by
  have hsum := tailWidths_sum n hn
  rw [tailWidths] at hsum
  rw [tailReads, foldl_tailStep_word bytes a n _ rfl, hsum, Nat.zero_add]

/-- The tail read is one read of all the bytes left: its mask has no byte to zero (rule R231). -/
theorem readTail_eq_readLE (bytes : Bytes) (a : Nat) {n : Nat} (hn : n < 8) : readTail bytes a n = readLE bytes a n := by
  rw [readTail, tailReads_word bytes a hn, readLE_and_tailMask bytes a hn.le]

theorem tailReads_reads (bytes : Bytes) (a n : Nat) : (tailReads bytes a n).reads = readsAt a (tailWidths n) :=
  foldl_tailStep_reads bytes a n [4, 2, 1] _

/-- Settles O24: the reads are those of the widths that add up to the count, and their word is that of one read. -/
theorem tailReadIsExact : Obligations.TailReadIsExact := by
  intro bytes a r _ h7
  have hr : r < 8 := by omega
  rw [tailReads_reads, readTail_eq_readLE bytes a hr, tailReads_word bytes a hr, readsAt_bytes, tailWidths_sum r hr,
    readsAt_map_width]
  exact ⟨rfl, tailWidths_sublist r, fun k hk => readLE_byte bytes hk hr.le, readLE_shift_width bytes a r, rfl⟩

/-! ### The epilogue -/

/-- The word loop extends `ACC` by its words' bytes (rule R230). -/
theorem wordLoop_acc (bytes : Bytes) (k : Nat) (r : Run) :
    (wordLoop bytes k r).acc = seq r.acc (bytesFrom bytes r.addr (8 * k)) := by
  induction k generalizing r with
  | zero => rfl
  | succ k ih =>
    rw [wordLoop, ih, Run.consume_acc_seq bytes 8 r le_rfl, Run.consume_addr, ← seq_append, ← bytesFrom_add,
      Nat.add_comm, Nat.mul_succ]

/-- The tail extends `ACC` by the bytes left (rule R232). -/
theorem tailBody_acc (bytes : Bytes) {r : Run} (h : r.len < 8) :
    (tailBody bytes r).acc = seq r.acc (bytesFrom bytes r.addr r.len) := by
  unfold tailBody
  split
  · next hz => rw [hz]; rfl
  · rw [readTail_eq_readLE bytes r.addr h]
    exact stepBytes_readLE bytes r.len r.addr r.acc h.le

/-- `ACC` after the epilogue is the sequential CRC of the whole buffer (rule R233). -/
theorem epilogueBody_acc (bytes : Bytes) (r : Run) :
    (epilogueBody bytes r).acc = seq r.acc (bytesFrom bytes r.addr r.len) := by
  obtain ⟨haddr, hlen⟩ := wordLoop_cursor bytes (r.len / 8) r
  have hsplit : 8 * (r.len / 8) + (r.len - 8 * (r.len / 8)) = r.len := by omega
  rw [epilogueBody, tailBody_acc bytes (by omega), wordLoop_acc, haddr, hlen, ← seq_append, ← bytesFrom_add, hsplit]

/-- Settles O23: the job runs on to its body's results, and every byte of the buffer is consumed. -/
theorem epilogueResult : Obligations.EpilogueResult := by
  intro s hready hc hstable
  have hacc := epilogueBody_acc (Memory.read s.mem) (Run.load s)
  refine ⟨exec_started hready hc rfl, ?_⟩
  rw [runJob_started_stable (i := .epilogue) hstable, State.computed_of_keepsLanes rfl]
  simp only [jobBody, hacc, consumedCount, BitVec.ofNat_toNat, BitVec.setWidth_eq, BitVec.sub_self]
  rfl

end Sys2Proof.Machine
end

section
/-! NOP: it reads no memory and its body does nothing, so of the registers only `STATUS` changes (rule R252). -/

namespace Sys2Proof.Machine

theorem computed_nop (s : State) :
    s.computed .nop = { s with status := { s.status with busy := false, done := true }, job := none } :=
  congrArg State.complete (Run.store_load s)

/-- A `STATUS` of 0 reads 2 with `DONE` set: every other flag of it is clear (rule R35). -/
theorem Status.word_done_of_word_zero {t : Status} (h : t.word = 0) :
    ({ t with busy := false, done := true } : Status).word = 2 := by
  obtain ⟨-, -, herr, hdrop⟩ := t.word_bits
  have hcode := t.word_errcode
  rw [h] at herr hdrop hcode
  simp only [Status.word, ← herr, ← hdrop, ← hcode]
  decide

/-- Settles O15: the results of a body that does nothing, in the acceptance step or as the started job runs on. -/
theorem nopResult : Obligations.NopResult := by
  refine ⟨by decide, fun s => ⟨?eager, ?deferred, ?word, fun hblocked => ?dropped⟩⟩
  case eager =>
    intro hready he
    rw [exec_eager hready rfl rfl he, computed_nop]
  case deferred =>
    intro hready he
    exact ⟨exec_deferred hready rfl he, (runJob_started_noRead rfl).trans (computed_nop s)⟩
  case word =>
    intro hready he hzero
    refine ⟨s.computed .nop, exec_eager hready rfl rfl he, ?_⟩
    rw [computed_nop]
    exact Status.word_done_of_word_zero hzero
  case dropped =>
    rw [exec_eq_onCommand, onCommand_blocked (Bool.or_eq_true_iff.2 hblocked)]
    rfl

end Sys2Proof.Machine
end

section
/-! COMPUTE over a stable buffer: the sequential CRC of its bytes, from the three parts of its body (rules R250 to
R255). -/

namespace Sys2Proof.Machine

/-! ### The body's results -/

/-- Striping extends `ACC` by the bytes it consumes, whether or not it engages (rules R183, R186). -/
theorem stripeBody_acc (bytes : Bytes) (r : Run) :
    (stripeBody bytes r).acc = seq r.acc (bytesFrom bytes r.addr (stripeCount r.len)) := by
  unfold stripeCount
  split
  · next hbelow => rw [stripeBody_below bytes hbelow]; rfl
  · next habove => exact (stripeBody_crc bytes (not_lt.1 habove)).1

/-- Striping that engages leaves the CRC of the bytes it consumes in lane 0 and zeroes the other lanes; else it keeps
the lane registers (rules R183, R184). -/
theorem stripeBody_lanes (bytes : Bytes) (r : Run) :
    (stripeBody bytes r).crc0
        = (if r.len < 96 then r.crc0 else seq r.acc (bytesFrom bytes r.addr (stripeCount r.len)))
      ∧ (stripeBody bytes r).crc1 = (if r.len < 96 then r.crc1 else 0)
      ∧ (stripeBody bytes r).crc2 = (if r.len < 96 then r.crc2 else 0) := by
  unfold stripeCount
  split
  · next hbelow => rw [stripeBody_below bytes hbelow]; exact ⟨rfl, rfl, rfl⟩
  · next habove => exact (stripeBody_crc bytes (not_lt.1 habove)).2

/-- `ACC` after COMPUTE is the sequential CRC of the whole buffer: each part extends it by the bytes it consumes (rules
R250, R255). -/
theorem computeBody_acc (bytes : Bytes) (r : Run) :
    (computeBody bytes r).acc = seq r.acc (bytesFrom bytes r.addr r.len) := by
  obtain ⟨haddr, hlen⟩ := prologueBody_cursor bytes r
  obtain ⟨haddr', hlen'⟩ := stripeBody_cursor bytes (prologueBody bytes r)
  have hle := prologueCount_le r.addr r.len
  have hle' := stripeCount_le (r.len - prologueCount r.addr r.len)
  have hstriped : stripeCount (r.len - prologueCount r.addr r.len)
      + (r.len - prologueCount r.addr r.len - stripeCount (r.len - prologueCount r.addr r.len))
        = r.len - prologueCount r.addr r.len := by omega
  have hwhole : prologueCount r.addr r.len + (r.len - prologueCount r.addr r.len) = r.len := by omega
  rw [computeBody, epilogueBody_acc, haddr', hlen', stripeBody_acc, haddr, hlen, prologueBody_acc, ← seq_append,
    ← bytesFrom_add, hstriped, ← seq_append, ← bytesFrom_add, hwhole]

/-- The lane registers after COMPUTE are those that striping leaves after the prologue (rule R250; log 25). -/
theorem computeBody_lanes (bytes : Bytes) (r : Run) :
    (computeBody bytes r).crc0
        = (if r.len - prologueCount r.addr r.len < 96 then r.crc0
          else seq r.acc (bytesFrom bytes r.addr
            (prologueCount r.addr r.len + stripeCount (r.len - prologueCount r.addr r.len))))
      ∧ (computeBody bytes r).crc1 = (if r.len - prologueCount r.addr r.len < 96 then r.crc1 else 0)
      ∧ (computeBody bytes r).crc2 = (if r.len - prologueCount r.addr r.len < 96 then r.crc2 else 0) := by
  obtain ⟨haddr, hlen⟩ := prologueBody_cursor bytes r
  obtain ⟨h0, h1, h2, -⟩ := prologueBody_lanes bytes r
  obtain ⟨h0', h1', h2'⟩ := stripeBody_lanes bytes (prologueBody bytes r)
  obtain ⟨h0'', h1'', h2'', -⟩ := epilogueBody_lanes bytes (stripeBody bytes (prologueBody bytes r))
  rw [computeBody, h0'', h1'', h2'', h0', h1', h2', h0, h1, h2, haddr, hlen, prologueBody_acc, ← seq_append,
    ← bytesFrom_add]
  exact ⟨rfl, rfl, rfl⟩

/-! ### The statements about one COMPUTE -/

/-- Settles O25: the job runs on to its body's results. -/
theorem computeResult : Obligations.ComputeResult := by
  intro s hready hc hstable
  have hacc := computeBody_acc (Memory.read s.mem) (Run.load s)
  obtain ⟨h0, h1, h2⟩ := computeBody_lanes (Memory.read s.mem) (Run.load s)
  obtain ⟨haddr, hlen⟩ := computeBody_cursor (Memory.read s.mem) (Run.load s)
  simp only [Run.load_acc, Run.load_addr, Run.load_len, Run.load_crc0, Run.load_crc1, Run.load_crc2]
    at hacc h0 h1 h2 haddr
  refine ⟨exec_started hready hc rfl, ?_⟩
  rw [runJob_started_stable (i := .compute) hstable]
  simp only [State.computed, jobBody, State.complete, Run.store, hacc, h0, h1, h2, haddr, hlen, BitVec.ofNat_add,
    BitVec.ofNat_toNat, BitVec.setWidth_eq, State.buffer]
  rfl

theorem checkBuffer_eq_none_iff {s : State} :
    checkBuffer s = none ↔ (s.addr.toNat = 0 → s.len.toNat = 0) ∧ s.addr.toNat + s.len.toNat ≤ 2 ^ 64 := by
  unfold checkBuffer
  split_ifs <;> simp only [false_iff, true_iff] <;> omega

/-- Settles O26: a buffer of no byte passes the check at any address, and the body does nothing. -/
theorem computeZeroLength : Obligations.ComputeZeroLength := by
  intro s hready hlen
  have hzero : s.len.toNat = 0 := by rw [hlen]; rfl
  have hbody (bytes : Bytes) : jobBody .compute bytes (Run.load s) = Run.load s := jobBody_none rfl bytes hzero
  have hc : commandCheck .compute s = none :=
    checkBuffer_eq_none_iff.2 ⟨fun _ => hzero, by rw [hzero]; exact s.addr.isLt.le⟩
  have hrun : runJob (s.started .compute) = s.computed .compute :=
    runJob_started_stable fun k hk => absurd hk (by simp [consumedCount, hzero])
  refine ⟨congrArg Run.reads (hbody _), exec_started hready hc rfl, ?_⟩
  rw [hrun, State.computed, hbody, Run.store_load]
  rfl

/-- Settles O28: `ACC` is a function of the seed and the buffer's bytes. -/
theorem computeAlignmentIndependence : Obligations.ComputeAlignmentIndependence := by
  intro s t hs ht hcs hct hstables hstablet hseed _ hbytes
  obtain ⟨hexecs, hruns⟩ := computeResult s hs hcs hstables
  obtain ⟨hexect, hrunt⟩ := computeResult t ht hct hstablet
  refine ⟨_, _, hexecs, hexect, ?_⟩
  rw [hruns, hrunt]
  exact ⟨rfl, rfl, by rw [hseed, hbytes]⟩

/-- A ready engine's command whose check fails leaves the fault's state (rule R302). -/
theorem exec_fault {i : Instr} {s : State} {c : FaultCode} (hready : s.ready) (hc : commandCheck i s = some c) :
    exec i s = .next (s.preconditionFault c) := by
  rw [exec_eq_onCommand, onCommand_fault hready.not_blocked hc, accept_raiseFault]

/-- Settles O29: a check that fails does not read the lane registers, and the results of a job do not depend on them. -/
theorem computeIgnoresLaneRegisters : Obligations.ComputeIgnoresLaneRegisters := by
  intro s x y z hready hstable
  have hcheck : commandCheck .compute { s with crc0 := x, crc1 := y, crc2 := z } = commandCheck .compute s := rfl
  cases hc : commandCheck .compute s with
  | none =>
    obtain ⟨hexec, hrun⟩ := computeResult s hready hc hstable
    obtain ⟨hexec', hrun'⟩ := computeResult { s with crc0 := x, crc1 := y, crc2 := z } hready (hcheck.trans hc) hstable
    refine ⟨_, _, hexec, hexec', ?_⟩
    rw [hrun, hrun']
    exact ⟨rfl, rfl, rfl, rfl, rfl⟩
  | some c =>
    exact ⟨_, _, exec_fault hready hc, exec_fault hready (hcheck.trans hc), rfl, rfl, rfl, rfl, rfl⟩

/-! ### A buffer in two parts -/

/-- The buffer at `t`'s cursor is the part of `s`'s buffer that starts `m` bytes in and has `n` bytes. -/
structure State.isPart (s t : State) (m n : Nat) : Prop where
  within : m + n ≤ s.len.toNat
  addr : t.addr = s.addr + BitVec.ofNat 64 m
  len : t.len = BitVec.ofNat 64 n
  mem : t.mem = s.mem
  stale : t.stale = s.stale
  plat : t.plat = s.plat

section
variable {s t : State} {m n : Nat}

theorem State.isPart.len_toNat (h : s.isPart t m n) : t.len.toNat = n := by
  have hle := h.within
  rw [h.len]
  bv_omega

/-- The cursor of a part that has a byte does not wrap. -/
theorem State.isPart.addr_toNat (h : s.isPart t m n) (hc : checkBuffer s = none) (hn : 0 < n) :
    t.addr.toNat = s.addr.toNat + m := by
  obtain ⟨-, hend⟩ := checkBuffer_eq_none_iff.1 hc
  have hle := h.within
  rw [h.addr]
  bv_omega

/-- A part of a buffer that passes the check passes it: a part of no byte does so at any address. -/
theorem State.isPart.passesCheck (h : s.isPart t m n) (hc : checkBuffer s = none) : checkBuffer t = none := by
  obtain ⟨hnull, hend⟩ := checkBuffer_eq_none_iff.1 hc
  have hle := h.within
  have hlen := h.len_toNat
  refine checkBuffer_eq_none_iff.2 ?_
  rcases Nat.eq_zero_or_pos n with hnone | hsome
  · have := t.addr.isLt
    omega
  · have haddr := h.addr_toNat hc hsome
    omega

theorem State.isPart.stableBuffer (h : s.isPart t m n) (hc : checkBuffer s = none)
    (hstable : s.stableBuffer s.len.toNat) : t.stableBuffer t.len.toNat := by
  intro k hk
  have hle := h.within
  rw [h.len_toNat] at hk
  rw [h.plat, h.stale, h.addr_toNat hc (by omega), Nat.add_assoc]
  exact hstable (m + k) (by omega)

theorem State.isPart.buffer (h : s.isPart t m n) (hc : checkBuffer s = none) :
    t.buffer t.len.toNat = bytesFrom (Memory.read s.mem) (s.addr.toNat + m) n := by
  rw [h.len_toNat, State.buffer, h.mem]
  rcases Nat.eq_zero_or_pos n with rfl | hsome
  · rfl
  · rw [h.addr_toNat hc hsome]

end

/-- Settles O27: the first COMPUTE leaves the cursor at the rest of the buffer and in `ACC` the CRC of the first part,
the seed of the second. -/
theorem computeContinuation : Obligations.ComputeContinuation := by
  intro s k hready hc hstable hk
  have hfirst : s.isPart { s with len := BitVec.ofNat 64 k } 0 k :=
    ⟨by omega, (BitVec.add_zero _).symm, rfl, rfl, rfl, rfl⟩
  obtain ⟨hexec, hrun⟩ := computeResult s hready hc hstable
  obtain ⟨hexec₁, hrun₁⟩ := computeResult { s with len := BitVec.ofNat 64 k } hready (hfirst.passesCheck hc)
    (hfirst.stableBuffer hc hstable)
  rw [hfirst.buffer hc] at hrun₁
  obtain ⟨t, ht⟩ : ∃ t, runJob ({ s with len := BitVec.ofNat 64 k }.started .compute) = t := ⟨_, rfl⟩
  have htready : t.ready := by rw [← ht, hrun₁]; exact ⟨rfl, hready.2⟩
  have hrest : s.isPart { t with len := s.len - BitVec.ofNat 64 k } k (s.len.toNat - k) := by
    have hlen : s.len - BitVec.ofNat 64 k = BitVec.ofNat 64 (s.len.toNat - k) := by bv_omega
    rw [← ht, hrun₁]
    exact ⟨by omega, rfl, hlen, rfl, rfl, rfl⟩
  obtain ⟨hexec₂, hrun₂⟩ := computeResult { t with len := s.len - BitVec.ofNat 64 k } htready (hrest.passesCheck hc)
    (hrest.stableBuffer hc hstable)
  rw [hrest.buffer hc] at hrun₂
  refine ⟨_, t, _, _, _, _, hexec₁, ht, hexec₂, rfl, hexec, rfl, ?done₁, ?done₂, ?acc, ?addr, ?len⟩
  case done₁ => rw [← ht, hrun₁]
  case done₂ => rw [hrun₂]
  case acc =>
    have hwhole : k + (s.len.toNat - k) = s.len.toNat := by omega
    have hacc : t.acc = seq s.acc (bytesFrom (Memory.read s.mem) s.addr.toNat k) := by rw [← ht, hrun₁]; rfl
    rw [hrun₂, hrun]
    simp only [hacc, ← seq_append, ← bytesFrom_add, hwhole, State.buffer]
  case addr =>
    have haddr : t.addr = s.addr + BitVec.ofNat 64 k := hrest.addr
    rw [hrun₂, hrun]
    simp only [haddr]
    bv_omega
  case len => rw [hrun₂, hrun]

end Sys2Proof.Machine
end

section
/-! Acceptance of a command write, the causes of the precondition faults, and that every move answers a next state (rules
R300 to R305, R315). -/

namespace Sys2Proof.Machine

/-! ### Every move answers a next state -/

theorem commandWrite_next (w : Word32) (s : State) : ∃ t, commandWrite w s = .next t := by
  rcases commandWrite_cases w s with ⟨i, heq⟩ | heq
  · exact ⟨_, heq⟩
  · exact ⟨_, heq⟩

theorem hostWrite_next (a : Word64) (width : Nat) (v : Word64) (s : State) : ∃ t, hostWrite a width v s = .next t := by
  unfold hostWrite
  split
  · exact ⟨_, rfl⟩
  · split
    · split
      · exact commandWrite_next _ _
      · exact ⟨_, rfl⟩
    · exact ⟨_, rfl⟩

theorem hostLine_next (s : State) : ∃ t, hostLine s = .next t := by
  unfold hostLine
  split
  case h_3 => exact hostWrite_next _ _ _ _
  all_goals exact ⟨_, rfl⟩

theorem perform_next (e : Event) (s : State) : ∃ t, perform e s = .next t := by
  cases e
  case hostWrite => exact hostWrite_next _ _ _ s
  case line => exact hostLine_next s
  all_goals exact ⟨_, rfl⟩

/-- Settles O8: a scheduled move answers a next state, and so do a job that runs on and the host's next line. -/
theorem stepNeverStops : Obligations.StepNeverStops := by
  intro s
  cases he : s.events with
  | cons e rest => rw [step_event he]; exact perform_next e _
  | nil =>
    cases hj : s.job with
    | some j => exact ⟨_, step_running he hj⟩
    | none => rw [step_idle he hj]; exact hostLine_next s

/-! ### Acceptance -/

/-- While the engine is busy or in error a command write, legal or not, is dropped (rule R300). -/
theorem commandWrite_blocked {s : State} (h : s.blocked = true) (w : Word32) : commandWrite w s = .next s.dropWrite := by
  rcases commandWrite_cases w s with ⟨i, heq⟩ | heq <;> rw [heq]
  · rw [onCommand_blocked h]
  · rw [onIllegal, if_pos h]

/-- Settles O9: the word's decoding and the command's check decide which of the three outcomes an accepted write has. -/
theorem commandWriteAcceptance : Obligations.CommandWriteAcceptance := by
  refine fun w s => ⟨fun hb => commandWrite_blocked (Bool.or_eq_true_iff.2 hb) w, fun hbusy herr =>
    ⟨fun hw => commandWrite_illegal hw ⟨hbusy, herr⟩, fun i hi => ⟨fun c hc => commandWrite_fault hi ⟨hbusy, herr⟩ hc,
      fun hc hrun => ?started⟩⟩⟩
  have hexec : commandWrite w s = exec i s := by rw [commandWrite, hi]
  rw [hexec]
  rcases hrun with hm | he
  · exact exec_started ⟨hbusy, herr⟩ hc hm
  · exact exec_deferred ⟨hbusy, herr⟩ hc he

/-- Settles O42: a job with no read runs on to the results that the acceptance step leaves. -/
theorem deferredJobAgrees : Obligations.DeferredJobAgrees := by
  intro i s hready hc hm he
  rw [exec_eager hready hc hm he, runJob_started_noRead hm]

/-! ### Precondition faults -/

section
variable {i : Instr} {s : State} {c : FaultCode}

/-- A ready engine's command ends in a precondition fault exactly where its check reports that fault: a job that starts or
completes leaves `ERR = 0` (rule R302). -/
theorem exec_eq_preconditionFault_iff (hready : s.ready) :
    exec i s = .next (s.preconditionFault c) ↔ commandCheck i s = some c := by
  refine ⟨fun h => ?_, exec_fault hready⟩
  have hfault : ∀ t, exec i s = .next t → t.status.err = true ∧ t.status.errcode = c := by
    intro t ht
    obtain rfl : s.preconditionFault c = t := Host.Outcome.next.inj (h.symm.trans ht)
    exact ⟨rfl, rfl⟩
  cases hc : commandCheck i s with
  | some d => rw [← (hfault _ (exec_fault hready hc)).2]; rfl
  | none =>
    have hclear : ∀ t, exec i s = .next t → t.status.err ≠ false := fun t ht => by simp [(hfault t ht).1]
    cases hm : readsMemory i with
    | true => exact (hclear _ (exec_started hready hc hm) hready.2).elim
    | false =>
      cases he : s.eager with
      | true => exact (hclear _ (exec_eager hready hc hm he) hready.2).elim
      | false => exact (hclear _ (exec_deferred hready hc he) hready.2).elim

/-- `CheckBuffer` reports NULL and RANGE, which exclude each other (rule R304). -/
theorem checkBuffer_eq_some_iff : checkBuffer s = some c ↔
    c = .null ∧ s.addr.toNat = 0 ∧ 0 < s.len.toNat ∨ c = .range ∧ 2 ^ 64 < s.addr.toNat + s.len.toNat := by
  unfold checkBuffer
  split_ifs with hnull hend
  · have hend : ¬ 2 ^ 64 < s.addr.toNat + s.len.toNat := by have := s.len.isLt; omega
    rw [or_iff_left fun h => hend h.2, and_iff_left hnull, Option.some.injEq, eq_comm]
  · rw [or_iff_right fun h => hnull h.2, and_iff_left hend, Option.some.injEq, eq_comm]
  · exact iff_of_false id (not_or.2 ⟨fun h => hnull h.2, fun h => hend h.2⟩)

theorem checkAligned8_eq_some_iff : checkAligned8 s = some c ↔ c = .align ∧ s.addr.toNat % 8 ≠ 0 := by
  unfold checkAligned8
  split_ifs with h <;> simp [h, eq_comm]

/-- A check of alignment after that of the buffer reports ALIGN only where the buffer is in range (rule R301). -/
theorem checkBuffer_or_eq_some_iff {p : Prop} [Decidable p] :
    (checkBuffer s).or (if p then checkAligned8 s else none) = some c ↔
      checkBuffer s = some c
        ∨ c = .align ∧ p ∧ s.addr.toNat % 8 ≠ 0 ∧ s.addr.toNat + s.len.toNat ≤ 2 ^ 64 := by
  rw [Option.or_eq_some_iff, checkBuffer_eq_none_iff]
  split
  · next hp =>
    rw [checkAligned8_eq_some_iff]
    refine or_congr_right ⟨?_, ?_⟩
    · rintro ⟨⟨-, hend⟩, hc, hodd⟩
      exact ⟨hc, hp, hodd, hend⟩
    · rintro ⟨hc, -, hodd, hend⟩
      exact ⟨⟨fun hzero => absurd (by rw [hzero]) hodd, hend⟩, hc, hodd⟩
  · next hp => simp [hp]

/-- The buffer's causes are those of a memory command. -/
theorem faultCause_iff_of_readsMemory (hm : readsMemory i = true) :
    faultCause i s c ↔ checkBuffer s = some c
      ∨ c = .align ∧ (i = .stripe ∨ i = .epilogue ∧ 8 ≤ s.len.toNat) ∧ s.addr.toNat % 8 ≠ 0
        ∧ s.addr.toNat + s.len.toNat ≤ 2 ^ 64 := by
  have hi : ∀ n, i ≠ .combine n := by
    rintro n rfl
    simp [readsMemory] at hm
  rw [checkBuffer_eq_some_iff]
  cases c <;> simp [faultCause, hm, hi]

/-- A command's check reports a code exactly for its cause (rules R301 to R305, R213). -/
theorem commandCheck_eq_some_iff : commandCheck i s = some c ↔ faultCause i s c := by
  cases i
  case nop | step1 | step2 | step4 | step8 => cases c <;> simp [commandCheck, noCheck, faultCause, readsMemory]
  case combine n =>
    cases c <;> simp [commandCheck, checkBlockSize, faultCause, readsMemory, or_iff_not_imp_left]
  case prologue | compute =>
    rw [faultCause_iff_of_readsMemory rfl]
    simp [commandCheck]
  case stripe =>
    rw [faultCause_iff_of_readsMemory rfl]
    simpa [commandCheck, checkStripe] using checkBuffer_or_eq_some_iff (s := s) (c := c) (p := True)
  case epilogue =>
    rw [faultCause_iff_of_readsMemory rfl]
    simpa [commandCheck, checkEpilogue] using checkBuffer_or_eq_some_iff (s := s) (c := c)

end

/-- Settles O10: the fault is the check's, and the check reports the cause. -/
theorem preconditionFaultCauses : Obligations.PreconditionFaultCauses := fun _ _ _ hbusy herr =>
  (exec_eq_preconditionFault_iff ⟨hbusy, herr⟩).trans commandCheck_eq_some_iff

end Sys2Proof.Machine
end

section
/-! The stuck state: every move but the platform's reset keeps the job waiting for its read that is never answered (rule
R307). -/

namespace Sys2Proof.Machine

section
variable {s t : State}

theorem State.stuck.blocked (h : s.stuck) : s.blocked = true := by
  simp [State.blocked, h.1]

/-- The same engine but for what the stuck state does not speak of. -/
theorem State.stuck.of_eq (h : s.stuck) (hbusy : t.status.busy = s.status.busy) (hjob : t.job = s.job)
    (hplat : t.plat = s.plat) : t.stuck := by
  obtain ⟨hb, j, hj, r, hr, hn⟩ := h
  exact ⟨hbusy.trans hb, j, hjob.trans hj, r, hr, hplat ▸ hn⟩

/-! ### Host accesses -/

theorem hostRead_stuck (h : s.stuck) (a : Word64) (width : Nat) : (hostRead a width s).stuck :=
  have hframe := hostRead_frame a width s
  h.of_eq (congrArg (·.status.busy) hframe :) (congrArg State.job hframe :) (congrArg State.plat hframe :)

/-- A register write, dropped or not, leaves `BUSY`, the job and the platform as they are. -/
theorem windowWrite_stuck (h : s.stuck) (o width : Nat) (v : Word64) : (windowWrite o width v s).stuck := by
  unfold windowWrite
  split
  · exact h.of_eq rfl rfl rfl
  · cases regAt o <;> exact h.of_eq rfl rfl rfl

theorem hostWrite_stuck (h : s.stuck) {a : Word64} {width : Nat} {v : Word64}
    (ht : hostWrite a width v s = .next t) : t.stuck := by
  have hresp : ∀ r, ({ s with resp := r }).stuck := fun r => h.of_eq rfl rfl rfl
  unfold hostWrite at ht
  split at ht
  · cases ht; exact h
  · split at ht
    · split at ht
      · rw [commandWrite_blocked (hresp _).blocked] at ht
        cases ht
        exact (hresp .done).of_eq rfl rfl rfl
      · cases ht; exact windowWrite_stuck (hresp _) ..
    · cases ht; exact hresp _

theorem hostLine_stuck (h : s.stuck) (ht : hostLine s = .next t) : t.stuck := by
  have hprogram : ∀ rest, ({ s with program := rest }).stuck := fun rest => h.of_eq rfl rfl rfl
  unfold hostLine at ht
  split at ht
  · cases ht; exact h
  · cases ht; exact hostRead_stuck (hprogram _) ..
  · exact hostWrite_stuck (hprogram _) ht
  · next rest _ =>
    rw [waitTurn_busy rest h.1] at ht
    cases ht
    exact h.of_eq rfl rfl rfl

/-! ### The engine's and the memory's moves -/

/-- An issued read joins those outstanding. -/
theorem issueRead_stuck (h : s.stuck) (k : Nat) : (issueRead k s).stuck := by
  obtain ⟨hb, j, hj, r, hr, hn⟩ := id h
  simp only [issueRead, hj]
  split
  · exact ⟨hb, _, rfl, r, List.mem_append_left _ hr, hn⟩
  · exact h

/-- An answered read is another one than the read that is never answered. -/
theorem answerRead_stuck (h : s.stuck) (k : Nat) : (answerRead k s).stuck := by
  obtain ⟨hb, j, hj, r, hr, hn⟩ := id h
  cases hq : j.out[k]? with
  | none => rwa [answerRead_none hj hq]
  | some q =>
    have hleft : q.neverAnswers s.plat ≠ true → r ∈ j.out.eraseIdx k := by
      intro hq'
      obtain ⟨m, hm⟩ := List.mem_iff_getElem?.1 hr
      refine List.mem_eraseIdx_iff_getElem?.2 ⟨m, ?_, hm⟩
      rintro rfl
      obtain rfl : q = r := Option.some.inj (hq.symm.trans hm)
      exact hq' hn
    simp only [answerRead, hj, hq, answerOne]
    split
    · exact h
    · next hanswers =>
      split_ifs
      · exact ⟨hb, _, rfl, r, hleft hanswers, hn⟩
      · exact h.of_eq rfl rfl rfl
      · exact ⟨hb, _, rfl, r, hleft hanswers, hn⟩

/-- The job's end waits for the outstanding read (rule R309). -/
theorem finishJob_stuck (h : s.stuck) : (finishJob s).stuck := by
  obtain ⟨-, j, hj, r, hr, -⟩ := id h
  rwa [finishJob_outstanding hj (List.ne_nil_of_mem hr)]

/-- A job with an outstanding read that is never answered waits when it is run on. -/
theorem settle_never {j : Job} (body : Body) (h : ∃ r ∈ j.out, r.neverAnswers s.plat = true) :
    ∃ out, settle body j s = waitOn j out s ∧ ∀ r ∈ j.out, r ∈ out := by
  have hany : j.out.any (BusRead.neverAnswers s.plat) = true := List.any_eq_true.2 h
  cases hf : j.failed with
  | some a => exact ⟨j.out, by simp [settle, hf, hany], fun r hr => hr⟩
  | none => exact ⟨j.out ++ j.todo, by simp [settle, hf, hany], fun r hr => List.mem_append_left _ hr⟩

theorem runJob_stuck (h : s.stuck) : (runJob s).stuck := by
  obtain ⟨hb, j, hj, r, hr, hn⟩ := h
  obtain ⟨out, heq, hout⟩ := settle_never (jobBody j.cmd) ⟨r, hr, hn⟩
  have hrun : runJob s = waitOn j out s := by rw [runJob, hj, ← heq]
  rw [hrun]
  exact ⟨hb, _, rfl, r, hout r hr, hn⟩

/-- A store marks the job, and its reads stay where they are. -/
theorem storeByte_stuck (h : s.stuck) (a : Word64) (v : Byte) : (storeByte a v s).stuck := by
  obtain ⟨hb, j, hj, r, hr, hn⟩ := h
  simp only [storeByte, markRace, hj]
  exact ⟨hb, _, rfl, r, hr, hn⟩

/-! ### The step -/

theorem perform_stuck {e : Event} (h : s.stuck) (he : e ≠ .reset) (ht : perform e s = .next t) : t.stuck := by
  cases e <;> simp only [perform, Host.Outcome.next.injEq] at ht
  case hostWrite => exact hostWrite_stuck h ht
  case line => exact hostLine_stuck h ht
  case reset => exact absurd rfl he
  all_goals subst ht
  case hostRead => exact hostRead_stuck h ..
  case issue => exact issueRead_stuck h _
  case answer => exact answerRead_stuck h _
  case finish => exact finishJob_stuck h
  case run => exact runJob_stuck h
  case store => exact storeByte_stuck h ..
  case pace | publish => exact h.of_eq rfl rfl rfl

theorem step_stuck (h : s.stuck) (hreset : s.events.head? ≠ some .reset) (ht : step s = .next t) : t.stuck := by
  cases he : s.events with
  | nil =>
    obtain ⟨-, j, hj, -⟩ := id h
    rw [step_running he hj] at ht
    cases ht
    exact runJob_stuck h
  | cons e rest =>
    rw [step_event he] at ht
    refine perform_stuck (s := { s with events := rest }) (h.of_eq rfl rfl rfl) ?_ ht
    rintro rfl
    exact hreset (by rw [he]; rfl)

end

/-- While a job runs `IRQ` is not asserted (rules R35, R310). -/
theorem State.Inv.irq_running {s : State} {j : Job} (h : s.Inv) (hj : s.job = some j) : s.irq = false := by
  obtain ⟨-, hdone, herr, -⟩ := h.running hj
  simp [State.irq, hdone, herr]

/-- Settles O40: each move but the reset keeps the read that is never answered outstanding, and `BUSY = 1` drops command
writes. -/
theorem onlyResetLeavesStuck : Obligations.OnlyResetLeavesStuck := by
  intro s h
  obtain ⟨-, j, hj, -⟩ := id h
  refine ⟨fun t ht hreset => step_stuck h hreset ht, fun rest he => ?reset, commandWrite_blocked h.blocked,
    fun hinv => hinv.irq_running hj⟩
  exact ⟨_, step_event he, rfl, rfl⟩

end Sys2Proof.Machine
end

section
/-! How a job that is run on ends: with all its reads answered, with an error, or stuck on a read that is never answered
(rules R306 to R309, R350). -/

namespace Sys2Proof.Machine

theorem mem_failingBytes {p : Platform} {rs : List BusRead} {a : Nat} :
    a ∈ failingBytes p rs ↔ ∃ r ∈ rs, a ∈ r.failing p := List.mem_flatMap

theorem BusRead.neverAnswers_iff {p : Platform} {r : BusRead} :
    r.neverAnswers p = true ↔ r.hasSilent p = true ∧ r.failing p = [] := by
  simp [BusRead.neverAnswers]

/-- A started job whose reads hold no silent byte, and one a failing byte, runs on to a BUS fault at one of the failing
bytes (rule R308). -/
theorem runJob_started_failing {i : Instr} {s : State} (hb : ∃ r ∈ readPlan (jobBody i) s, r.failing s.plat ≠ [])
    (hs : ∀ r ∈ readPlan (jobBody i) s, r.hasSilent s.plat = false) :
    ∃ a n, runJob (s.started i) = busFault i a ((s.started i).spend n)
      ∧ ∃ r ∈ readPlan (jobBody i) s, a ∈ r.failing s.plat := by
  rcases settle_cases (jobBody i) (startedJob i (jobBody i) s) (s.started i) with
    ⟨out, n, -, -, hout, r, hr, hsilent⟩ | ⟨a, n, heq, hnone | ⟨-, ha⟩⟩ | ⟨-, -, hnone, -⟩
  · exact absurd ((hs r (hout r hr)).symm.trans hsilent) Bool.false_ne_true
  · cases hnone
  · exact ⟨a, n, heq, mem_failingBytes.1 ha⟩
  · obtain ⟨r, hr, hne⟩ := hb
    exact absurd (List.flatMap_eq_nil_iff.1 hnone r hr) hne

/-- A started job whose reads hold no failing byte, and one a silent byte, runs on to where it waits for that read (rule
R307). -/
theorem runJob_started_silent {i : Instr} {s : State} (hs : ∃ r ∈ readPlan (jobBody i) s, r.hasSilent s.plat = true)
    (hb : ∀ r ∈ readPlan (jobBody i) s, r.failing s.plat = []) :
    ∃ out n, runJob (s.started i) = waitOn (startedJob i (jobBody i) s) out ((s.started i).spend n)
      ∧ ∃ r ∈ out, r.neverAnswers s.plat = true := by
  rcases settle_cases (jobBody i) (startedJob i (jobBody i) s) (s.started i) with
    ⟨out, n, heq, -, hout, r, hr, hsilent⟩ | ⟨a, n, -, hnone | ⟨-, ha⟩⟩ | ⟨-, -, -, hanswer⟩
  · exact ⟨out, n, heq, r, hr, BusRead.neverAnswers_iff.2 ⟨hsilent, hb r (hout r hr)⟩⟩
  · cases hnone
  · obtain ⟨r, hr, hfailing⟩ := mem_failingBytes.1 ha
    exact absurd (hb r hr ▸ hfailing) List.not_mem_nil
  · obtain ⟨r, hr, hsilent⟩ := hs
    exact absurd ((hanswer r hr).symm.trans hsilent) Bool.false_ne_true

/-- A BUS fault keeps the lane registers of the commands other than STRIPE and COMPUTE (rule R308). -/
theorem busFault_lanes {i : Instr} (hstripe : i ≠ .stripe) (hcompute : i ≠ .compute) (a : Nat) (s : State) :
    (busFault i a s).crc0 = s.crc0 ∧ (busFault i a s).crc1 = s.crc1 ∧ (busFault i a s).crc2 = s.crc2 := by
  have hlanes : writesLanes i = false := by
    cases i
    case stripe | compute => contradiction
    all_goals rfl
  simp [busFault, hlanes]

/-- Settles O38: the job ends in a BUS fault at a failing byte of its plan, from the status it was started with. -/
theorem busFaultReport : Obligations.BusFaultReport := by
  intro i s hready hc hb hs
  obtain ⟨q, hq, -⟩ := id hb
  obtain ⟨a, n, hrun, r, hr, ha⟩ := runJob_started_failing hb hs
  refine ⟨exec_started hready hc (readsMemory_of_mem_readPlan hq), _, rfl, ?_⟩
  rw [hrun]
  exact ⟨rfl, ⟨r, hr, a, ha, rfl⟩, rfl, ⟨rfl, rfl, rfl, rfl, rfl, rfl, rfl, rfl, rfl⟩,
    fun hstripe hcompute => busFault_lanes hstripe hcompute a _⟩

/-- Settles O39: the job waits with `BUSY = 1`, and only its reads were moved on. -/
theorem silentReadHangs : Obligations.SilentReadHangs := by
  intro i s hready hc hs hb
  obtain ⟨q, hq, -⟩ := id hs
  obtain ⟨out, n, hrun, hwaits⟩ := runJob_started_silent hs hb
  refine ⟨exec_started hready hc (readsMemory_of_mem_readPlan hq), _, rfl, ?_⟩
  rw [hrun]
  exact ⟨⟨rfl, _, rfl, hwaits⟩, ⟨rfl, rfl, rfl, rfl, rfl, rfl, rfl, rfl, rfl⟩, rfl, rfl, rfl, rfl, rfl, rfl, rfl, rfl⟩

/-- Settles O41: with no silent byte left a job that is run on does not wait: it ends in a BUS fault or completes. -/
theorem answeredJobEnds : Obligations.AnsweredJobEnds := by
  intro s j hj hs he
  have hrun : runJob s = settle (jobBody j.cmd) j s := by rw [runJob, hj]
  refine ⟨_, step_running he hj, ?_⟩
  rw [hrun]
  rcases settle_cases (jobBody j.cmd) j s with ⟨out, n, -, -, hout, r, hr, hsilent⟩ | ⟨a, n, heq, -⟩ | ⟨heq, -⟩
  · have hleft : r ∈ j.todo ++ j.out := List.mem_append.2 (List.mem_append.1 (hout r hr)).symm
    exact absurd ((hs r hleft).symm.trans hsilent) Bool.false_ne_true
  · rw [heq]
    exact ⟨rfl, rfl, .inr ⟨rfl, rfl⟩⟩
  · obtain ⟨hstatus, hjob⟩ := endJob_completes (jobBody j.cmd) j s
    rw [heq, hstatus, hjob]
    exact ⟨rfl, rfl, .inl rfl⟩

end Sys2Proof.Machine
end

section
/-! The interrupt output, a host write of `STATUS`, and the window's writes while a job runs (rules R35, R36, R310, R313,
R314). -/

namespace Sys2Proof.Machine

/-! ### `IRQ` after a command -/

/-- Of `BUSY`, `DONE` and `ERR` one is set: a job runs, a command completed, or a fault was taken. -/
def Status.showsOne (t : Status) : Prop :=
  t.busy = true ∧ t.done = false ∧ t.err = false ∨ t.busy = false ∧ t.done = true ∧ t.err = false
    ∨ t.busy = false ∧ t.done = false ∧ t.err = true

/-- Running a job on keeps `IRQEN`, and the job still runs, completed or faulted. -/
theorem settle_showsOne (body : Body) (j : Job) {s : State} (hbusy : s.status.busy = true)
    (hdone : s.status.done = false) (herr : s.status.err = false) :
    (settle body j s).irqen = s.irqen ∧ (settle body j s).status.showsOne := by
  rcases settle_cases body j s with ⟨out, n, heq, -⟩ | ⟨a, n, heq, -⟩ | ⟨heq, -⟩ <;> rw [heq]
  · exact ⟨rfl, by simp [Status.showsOne, hbusy, hdone, herr]⟩
  · exact ⟨rfl, by simp [Status.showsOne, busFault, hdone]⟩
  · obtain ⟨⟨hirqen, -⟩, -⟩ := endJob_frame body j s
    obtain ⟨hstatus, -⟩ := endJob_completes body j s
    exact ⟨hirqen, by simp [Status.showsOne, hstatus, herr]⟩

/-- A ready engine's command, after its acceptance step and after its job has run on (rules R300, R302, R309). -/
theorem command_showsOne {i : Instr} {s t : State} (hready : s.ready)
    (hend : exec i s = .next t ∨ commandCheck i s = none ∧ t = runJob (s.started i)) :
    t.irqen = s.irqen ∧ t.status.showsOne := by
  have hrun : (runJob (s.started i)).irqen = s.irqen ∧ (runJob (s.started i)).status.showsOne :=
    settle_showsOne _ (startedJob i (jobBody i) s) rfl rfl hready.2
  rcases hend with hexec | ⟨-, rfl⟩
  · cases hc : commandCheck i s with
    | some c =>
      obtain rfl : s.preconditionFault c = t := Host.Outcome.next.inj (exec_fault hready hc ▸ hexec)
      exact ⟨rfl, by simp [Status.showsOne, State.preconditionFault]⟩
    | none =>
      rw [exec_eq_onCommand] at hexec
      cases he : s.eager && !readsMemory i with
      | true =>
        rw [onCommand_eager hready.not_blocked hc he] at hexec
        cases hexec
        exact hrun
      | false =>
        rw [onCommand_deferred hready.not_blocked hc he] at hexec
        cases hexec
        exact ⟨rfl, by simp [Status.showsOne, hready.2]⟩
  · exact hrun

/-- Settles O51: the command's end shows in one of `DONE` and `ERR`, and `IRQ` is that one's enable. -/
theorem interruptFollowsStatus : Obligations.InterruptFollowsStatus := by
  refine ⟨fun s => by simp [State.irq], fun i s t hready hend => ?_⟩
  obtain ⟨hirqen, hone⟩ := command_showsOne hready hend
  have hirq : t.irq = (t.status.done && s.irqen.getLsbD 0 || t.status.err && s.irqen.getLsbD 1) := by
    rw [State.irq, hirqen]
  have hcleared : ∀ v : Word64, v.getLsbD 1 = true → v.getLsbD 2 = true → (t.clearStatus v).irq = false :=
    fun v hdone herr => by simp [State.irq, hdone, herr]
  rcases hone with ⟨hbusy, hdone, herr⟩ | ⟨hbusy, hdone, herr⟩ | ⟨hbusy, hdone, herr⟩ <;>
    rw [hdone, herr] at hirq
  · exact ⟨by simp [hdone], by simp [herr], fun _ => by simp [hirq], hcleared, rfl⟩
  · exact ⟨fun _ => by simp [hirq], by simp [herr], by simp [hbusy], hcleared, rfl⟩
  · exact ⟨by simp [hdone], fun _ => by simp [hirq], by simp [hbusy], hcleared, rfl⟩

/-! ### Writes at any time -/

/-- A host write of a register that is no operand: it is never dropped. -/
theorem hostWrite_notOperand {s : State} {o width : Nat} {r : Reg} (v : Word64) (ho : o < 4096)
    (ok : accessOk o width = true) (hc : o ≠ 8) (hr : regAt o = r) (hn : r.isOperand = false) :
    hostWrite (s.windowAddr o) width v s = .next
      (regWrite { s with resp := .done } (writePart o width (regValue s r) v) (writePart o width 0 v) r) := by
  subst hr
  rw [hostWrite_window s v ho ok hc, windowWrite, hn, Bool.and_false, if_neg Bool.false_ne_true]
  rfl

/-- The W1C bits of `STATUS` lie in its low half. -/
theorem State.clearStatus_congr (s : State) {v w : Word64} (h : v.setWidth 32 = w.setWidth 32) :
    s.clearStatus v = s.clearStatus w := by
  have hbit : ∀ i < 32, v.getLsbD i = w.getLsbD i := fun i hi => by
    simpa [BitVec.getLsbD_setWidth, hi] using congrArg (·.getLsbD i) h
  simp only [State.clearStatus, hbit 1 (by decide), hbit 2 (by decide), hbit 3 (by decide)]

theorem State.clearStatus_zero (s : State) : s.clearStatus 0 = s := by
  simp [State.clearStatus]

/-- Settles O49: the bits that a write sets are those of its low half, and its upper half sets none. -/
theorem returnFromFault : Obligations.ReturnFromFault := by
  refine fun s v => ⟨fun width hw => ?low, ?high, fun herr => commandWrite_blocked (by simp [State.blocked, herr])⟩
  case low =>
    have ok : accessOk 0x010 width = true := by rcases List.mem_pair.1 hw with rfl | rfl <;> rfl
    rw [hostWrite_notOperand (r := .status) v (by decide) ok (by decide) rfl rfl, regWrite,
      State.clearStatus_congr _ (writePart_low rfl 0 v)]
    rfl
  case high =>
    have hmask : (writePart 0x014 4 0 v).setWidth 32 = (0 : Word64).setWidth 32 :=
      writePart_high_narrow (o := 0x010) rfl 0 v
    rw [hostWrite_notOperand (r := .status) v (by decide) rfl (by decide) rfl rfl, regWrite,
      State.clearStatus_congr _ hmask, State.clearStatus_zero]

/-- The operand and lane registers by their offsets (rule R32). -/
theorem regAt_operand {o : Nat} (hlo : 0x020 ≤ o) (hhi : o < 0x058) : (regAt o).isOperand = true := by
  have h4 : 4 ≤ o / 8 := by omega
  have h11 : o / 8 < 11 := by omega
  unfold regAt
  interval_cases o / 8 <;> rfl

theorem regWrite_operand_status {r : Reg} (h : r.isOperand = true) (s : State) (v mask : Word64) :
    (regWrite s v mask r).status = s.status := by
  cases r <;> simp only [Reg.isOperand, Bool.false_eq_true] at h <;> rfl

/-- A write of an operand register while a job runs is dropped (rule R314; log 15). -/
theorem hostWrite_busy_operand {s : State} {o width : Nat} (v : Word64) (hb : s.status.busy = true)
    (ok : accessOk o width = true) (hlo : 0x020 ≤ o) (hhi : o < 0x058) :
    hostWrite (s.windowAddr o) width v s = .next ({ s with resp := .done } : State).dropWrite := by
  rw [hostWrite_window s v (by omega) ok (by omega), windowWrite, regAt_operand hlo hhi, Bool.and_true, if_pos hb]

/-- A write at or above 0x020 while none runs leaves `STATUS`. -/
theorem hostWrite_idle_status {s : State} {o width : Nat} (v : Word64) (hb : s.status.busy = false)
    (ok : accessOk o width = true) (hlo : 0x020 ≤ o) (ho : o < 4096) :
    ∃ t, hostWrite (s.windowAddr o) width v s = .next t ∧ t.status = s.status := by
  rcases lt_or_ge o 0x058 with hhi | hhi
  · exact ⟨_, hostWrite_idle v hb ho ok (by omega) rfl, regWrite_operand_status (regAt_operand hlo hhi) ..⟩
  · exact ⟨_, hostWrite_readOnly v ok ho (.inr hhi), rfl⟩

/-- `IRQEN` keeps its bits under a write of its upper half. -/
theorem writePart_irqen_high (b : BitVec 2) (v : Word64) :
    (writePart 0x01C 4 (b.setWidth 64) v).setWidth 2 = b := by
  have hold : b.setWidth 64 = (b.setWidth 32).setWidth 64 := by simp
  have hhigh := congrArg (BitVec.setWidth 2) (writePart_high_narrow (o := 0x018) rfl (b.setWidth 32) v)
  simpa using hhigh

/-- Settles O56: an operand register's write is dropped while a job runs, and `IRQEN` is no operand. -/
theorem hostWritesDuringAJob : Obligations.HostWritesDuringAJob := by
  refine fun s v => ⟨fun o width ok ho => ⟨fun hb => ⟨fun hlo hhi => hostWrite_busy_operand v hb ok hlo hhi,
    fun h => hostWrite_readOnly v ok ho h⟩, fun hb hlo => hostWrite_idle_status v hb ok (by omega) ho⟩,
    fun width hw => ?low, ?high⟩
  case low =>
    have ok : accessOk 0x018 width = true := by rcases List.mem_pair.1 hw with rfl | rfl <;> rfl
    have hbits : (writePart 0x018 width (regValue s .irqen) v).setWidth 2 = v.setWidth 2 := by
      simpa using congrArg (BitVec.setWidth 2) (writePart_low (o := 0x018) (width := width) rfl (regValue s .irqen) v)
    rw [hostWrite_notOperand (r := .irqen) v (by decide) ok (by decide) rfl rfl, regWrite, hbits]
  case high =>
    rw [hostWrite_notOperand (r := .irqen) v (by decide) rfl (by decide) rfl rfl, regWrite, regValue, writePart_irqen_high]

end Sys2Proof.Machine
end

section
/-! How many reads COMPUTE makes (rule R350). -/

namespace Sys2Proof.Machine

theorem readsAt_length (a : Nat) (ws : List Nat) : (readsAt a ws).length = ws.length := by
  rw [← List.length_map (f := BusRead.width), readsAt_map_width]

theorem wordReads_length (a k : Nat) : (wordReads a k).length = k := by
  rw [wordReads, readsAt_length, List.length_replicate]

/-- At most one read of each width 4, 2, 1 (rules R161, R231). -/
theorem tailWidths_length_le (n : Nat) : (tailWidths n).length ≤ 3 := (tailWidths_sublist n).length_le

theorem prologueReads_length_le (a l : Nat) : (prologueReads a l).length ≤ 3 := by
  rw [prologueReads, readsAt_length]
  exact tailWidths_length_le _

theorem stripeReads_length (a l : Nat) : (stripeReads a l).length = stripeCount l / 8 := by
  rw [(stripeReads_perm a l).length_eq, wordReads_length]

theorem epilogueReads_length_le (a l : Nat) : (epilogueReads a l).length ≤ l / 8 + 3 := by
  rw [epilogueReads, readsAt_length, List.length_append, List.length_replicate]
  exact Nat.add_le_add_left (tailWidths_length_le _) _

/-- Striping and the epilogue share the buffer's words, and the prologue and the tail make at most three reads each. -/
theorem computeReads_length_le (a l : Nat) : (computeReads a l).length ≤ l / 8 + 6 := by
  have hprologue := prologueReads_length_le a l
  have hepilogue := epilogueReads_length_le (a + prologueCount a l + stripeCount (l - prologueCount a l))
    (l - prologueCount a l - stripeCount (l - prologueCount a l))
  have hstriped := stripeCount_le (l - prologueCount a l)
  rw [computeReads, List.length_append, List.length_append, stripeReads_length]
  omega

/-- Settles O32: the plan is the reads of COMPUTE's three parts. -/
theorem computeReadBound : Obligations.ComputeReadBound := by
  intro s
  have hplan : readPlan computeBody s = computeReads s.addr.toNat s.len.toNat := readPlan_eq .compute s
  rw [hplan]
  exact computeReads_length_le _ _

end Sys2Proof.Machine
end

section
/-! The platform's reset as a step (rules R340, R342). -/

namespace Sys2Proof.Machine

theorem step_reset {s : State} {rest : List Event} (h : s.events = .reset :: rest) :
    step s = .next ({ s with events := rest } : State).resetEngine :=
  step_event h

/-- With no `DONE` and no `ERR` reported, `IRQ` deasserts (rules R310, R340). -/
@[simp] theorem State.resetEngine_irq (s : State) : s.resetEngine.irq = false := rfl

/-- Settles O48: whatever the engine held, the step's state takes the reset values, and memory and the platform from the
state before. -/
theorem resetStep : Obligations.ResetStep := by
  intro s rest h
  exact ⟨_, step_reset h, rfl, rfl, rfl, rfl, rfl, rfl, rfl, rfl, rfl, rfl, rfl, State.resetEngine_irq _, rfl, rfl⟩

end Sys2Proof.Machine
end

section
/-! A word of the opcode table as the next command write (rules R82, R110; log 17, 26). -/

namespace Sys2Proof

/-- The bytes of a command word, lowest offset first, make up that word (rule R82). -/
theorem wordOfBytes_bytesOfWord (w : Word32) :
    wordOfBytes (w.extractLsb' 0 8) (w.extractLsb' 8 8) (w.extractLsb' 16 8) (w.extractLsb' 24 8) = w := by
  rw [wordOfBytes, BitVec.extractLsb'_append_extractLsb'_eq_extractLsb' (by decide),
    BitVec.extractLsb'_append_extractLsb'_eq_extractLsb' (by decide),
    BitVec.extractLsb'_append_extractLsb'_eq_extractLsb' (by decide)]
  exact BitVec.extractLsb'_eq_self

/-- The table's decoder, which goes by way of the word's bytes, is the word decoder on the table's word. -/
theorem decodeTableWord_eq_some_iff {nbits w : Nat} {i : Instr} :
    decodeTableWord nbits w = some i ↔ decodeWord (tableWord nbits w) = .ok i := by
  rw [decodeTableWord, bytesOfWord, decodeBytes, wordOfBytes_bytesOfWord]
  cases decodeWord (tableWord nbits w) <;> simp

end Sys2Proof

namespace Sys2Proof.Machine

/-- Settles O7: the state's next move is the write of the table's word at offset 0x008, whose low 32 bits are that word;
what is left of `s.withFetchWord` with the move used up is `s`. -/
theorem scheduledWordRunsNext : Obligations.ScheduledWordRunsNext := by
  intro s nbits w i hi
  have hstep : step (s.withFetchWord nbits w)
      = commandWrite (((tableWord nbits w).setWidth 64).setWidth 32) { s with resp := .done } :=
    step_commandWrite (.inl rfl) rfl
  have hword : ((tableWord nbits w).setWidth 64).setWidth 32 = tableWord nbits w := by
    rw [BitVec.setWidth_setWidth_of_le _ (by decide), BitVec.setWidth_eq]
  rw [hstep, hword, commandWrite, decodeTableWord_eq_some_iff.1 hi]

end Sys2Proof.Machine
end
